-- ==== Sys2Proof/Word.lean ====
section
/-! DEFINITION. The word types of the engine (00_scope R6, R9). Bit 0 is the least significant bit. -/

namespace Sys2Proof

/-- A 32-bit word: A-memory, M-memory, Q, VMA, MD and the operand buses (R6 `WORD_BITS`). -/
abbrev Word := BitVec 32

/-- A 16-bit virtual micro-address (R6 `UPC_BITS`). -/
abbrev MicroAddr := BitVec 16

/-- A 56-bit microinstruction (R6 `UINST_BITS`). -/
abbrev Slot := BitVec 56

end Sys2Proof
end

