-- ==== Sys2Proof/Syntax.lean ====
section
/-! DEFINITION. The instructions as syntax: one constructor of `Instr` per row of spec/opcode_table.json,
its operands typed (30_encoding R141 to R155). An operand code outside the documented set decodes to an
`undefined` constructor that keeps the code, because the spec detects it only when the instruction
executes (R157, log 13). -/

namespace Sys2Proof

/-- The M operand selector, R148. -/
inductive MSource where
  /-- `M<n>`, R231. -/
  | m (n : BitVec 6)
  | md | vma | q | lc | macroIR | dispatchConstant
  | microStackPeek | microStackPop
  | pdlPointer | pdlIndex | cPdlPointer | cPdlPointerPop | cPdlIndex
  | interruptPointer | statCounter | statCounterAux
  | lv1Map | lv2MapControl | lv2MapAddress
  | multiplierOutput | dpMode | rgMode
  /-- Codes 0x56..0x7F, illegal (R258). -/
  | undefined (code : BitVec 7)
deriving DecidableEq, Repr

/-- The functional destination code `F`, R149. -/
inductive FuncDest where
  | none | lc | dpMode | rgMode | pdlPointer | pdlIndex
  | cPdlPointer | cPdlPointerPush | cPdlIndex
  | vma | vmaStartRead | vmaStartWrite | vmaStartReadForce | vmaStartWriteForce | md
  | lv1Map | lv2MapControl | lv2MapAddress
  | cramLow | cramHigh | cramMap
  | multiplierInput | interruptClear | statCounter | statCounterAux | imodLow | imodHigh
  /-- Codes 0x1B..0x3F, illegal (R292). -/
  | undefined (code : BitVec 6)
deriving DecidableEq, Repr

/-- The destination field of ALU and BYTE instructions, R149: an A-memory word, or a functional
destination and an M-memory word, both acted on. -/
inductive Dest where
  | a (addr : BitVec 12)
  | func (f : FuncDest) (m : BitVec 6)
deriving DecidableEq, Repr

/-- The output selector modes, R152. -/
inductive OutSel where
  | pass | shiftRight | signExtend | low11 | shiftLeft | mirror | masked
  /-- Mode 7, illegal (42_alu R342). -/
  | undefined
deriving DecidableEq, Repr

/-- The Q control, R153. -/
inductive QCtl where
  | keep | left | right | load
deriving DecidableEq, Repr

/-- The named JUMP conditions, R154. -/
inductive Condition where
  | typeMismatch | lt | le | ne | noPf | pfInt | pfIntSb | always
  /-- Codes 8..31, illegal (45_jump R409). -/
  | undefined (code : BitVec 5)
deriving DecidableEq, Repr

/-- What a JUMP tests (R145): `TEST = 1` names a condition, `TEST = 0` tests one bit of M. -/
inductive JumpTest where
  | cond (c : Condition)
  | bit (rot : BitVec 5)
deriving DecidableEq, Repr

/-- The fields common to all four formats, R141 (`OP` is the constructor of `Instr`). -/
structure Common where
  halt : Bool
  pjan : Bool
  mf : Bool
  msa : Bool
  slowDest : Bool
  ilong : Bool
  aSrc : BitVec 12
  mSrc : MSource
deriving DecidableEq, Repr

/-- The ALU format's own fields, R143 (`ALUOP` is the constructor of `Instr`). -/
structure AluFields where
  dest : Dest
  out : OutSel
  mask : Bool
  carry : Bool
  qctl : QCtl
deriving DecidableEq, Repr

/-- The BYTE format's own fields, R144 (`RSRC` and `RMASK` are the constructor of `Instr`). -/
structure ByteFields where
  dest : Dest
  len : BitVec 6
  rot : BitVec 5
deriving DecidableEq, Repr

/-- The JUMP format's own fields, R145 (`R`, `P`, `N` are the constructor of `Instr`). -/
structure JumpFields where
  addr : MicroAddr
  inv : Bool
  test : JumpTest
  lpc : Bool
deriving DecidableEq, Repr

/-- The DISPATCH format's own fields, R146 (`MIR` is the constructor of `Instr`). -/
structure DispatchFields where
  dconst : BitVec 10
  gcvEn : Bool
  oldEn : Bool
  dlen : BitVec 3
  lpc : Bool
  rot : BitVec 5
deriving DecidableEq, Repr

/-- The instruction set: one constructor per row of spec/opcode_table.json. -/
inductive Instr where
  /-- `ALU SETZ`, R311. -/
  | aluSetz (c : Common) (f : AluFields)
  /-- `ALU AND`, R312. -/
  | aluAnd (c : Common) (f : AluFields)
  /-- `ALU ANDCA`, R313. -/
  | aluAndca (c : Common) (f : AluFields)
  /-- `ALU SETM`, R314. -/
  | aluSetm (c : Common) (f : AluFields)
  /-- `ALU SETA`, R315. -/
  | aluSeta (c : Common) (f : AluFields)
  /-- `ALU XOR`, R316. -/
  | aluXor (c : Common) (f : AluFields)
  /-- `ALU IOR`, R317. -/
  | aluIor (c : Common) (f : AluFields)
  /-- `ALU SETO`, R318. -/
  | aluSeto (c : Common) (f : AluFields)
  /-- `ALU MSTEP`, R319. -/
  | aluMstep (c : Common) (f : AluFields)
  /-- `ALU DSTEP`, R320. -/
  | aluDstep (c : Common) (f : AluFields)
  /-- `ALU DFSTEP`, R321. -/
  | aluDfstep (c : Common) (f : AluFields)
  /-- `ALU RSTEP`, R322. -/
  | aluRstep (c : Common) (f : AluFields)
  /-- `ALU SUB`, R323. -/
  | aluSub (c : Common) (f : AluFields)
  /-- `ALU ADD`, R324. -/
  | aluAdd (c : Common) (f : AluFields)
  /-- `ALU INCM`, R325. -/
  | aluIncm (c : Common) (f : AluFields)
  /-- `ALU MPLUSM`, R327. -/
  | aluMplusm (c : Common) (f : AluFields)
  /-- `BYTE LOW`, R364. -/
  | byteLow (c : Common) (f : ByteFields)
  /-- `BYTE SELDEP`, R365. -/
  | byteSeldep (c : Common) (f : ByteFields)
  /-- `BYTE LDB`, R366. -/
  | byteLdb (c : Common) (f : ByteFields)
  /-- `BYTE DPB`, R367. -/
  | byteDpb (c : Common) (f : ByteFields)
  /-- `JUMP-XCT-NEXT`, R411. -/
  | jumpXctNext (c : Common) (f : JumpFields)
  /-- `JUMP`, R412. -/
  | jump (c : Common) (f : JumpFields)
  /-- `CALL-XCT-NEXT`, R413. -/
  | callXctNext (c : Common) (f : JumpFields)
  /-- `CALL`, R414. -/
  | call (c : Common) (f : JumpFields)
  /-- `RETURN-XCT-NEXT`, R415. -/
  | retXctNext (c : Common) (f : JumpFields)
  /-- `RETURN`, R416. -/
  | ret (c : Common) (f : JumpFields)
  /-- `DISPATCH`, R430. -/
  | dispatch (c : Common) (f : DispatchFields)
  /-- `DISPATCH MIR`, R440. -/
  | dispatchMir (c : Common) (f : DispatchFields)
deriving DecidableEq, Repr

/-- The common fields of an instruction. -/
def Instr.common : Instr → Common
  | .aluSetz c _ | .aluAnd c _ | .aluAndca c _ | .aluSetm c _ | .aluSeta c _ | .aluXor c _
  | .aluIor c _ | .aluSeto c _ | .aluMstep c _ | .aluDstep c _ | .aluDfstep c _ | .aluRstep c _
  | .aluSub c _ | .aluAdd c _ | .aluIncm c _ | .aluMplusm c _
  | .byteLow c _ | .byteSeldep c _ | .byteLdb c _ | .byteDpb c _
  | .jumpXctNext c _ | .jump c _ | .callXctNext c _ | .call c _ | .retXctNext c _ | .ret c _
  | .dispatch c _ | .dispatchMir c _ => c

/-- The destination of an ALU or BYTE instruction; JUMP and DISPATCH have none (40_cycle R202). -/
def Instr.dest : Instr → Option Dest
  | .aluSetz _ f | .aluAnd _ f | .aluAndca _ f | .aluSetm _ f | .aluSeta _ f | .aluXor _ f
  | .aluIor _ f | .aluSeto _ f | .aluMstep _ f | .aluDstep _ f | .aluDfstep _ f | .aluRstep _ f
  | .aluSub _ f | .aluAdd _ f | .aluIncm _ f | .aluMplusm _ f => some f.dest
  | .byteLow _ f | .byteSeldep _ f | .byteLdb _ f | .byteDpb _ f => some f.dest
  | .jumpXctNext _ _ | .jump _ _ | .callXctNext _ _ | .call _ _ | .retXctNext _ _ | .ret _ _
  | .dispatch _ _ | .dispatchMir _ _ => none

/-- The ALU format's own fields, for the sixteen ALU rows. -/
def Instr.aluFields : Instr → Option AluFields
  | .aluSetz _ f | .aluAnd _ f | .aluAndca _ f | .aluSetm _ f | .aluSeta _ f | .aluXor _ f
  | .aluIor _ f | .aluSeto _ f | .aluMstep _ f | .aluDstep _ f | .aluDfstep _ f | .aluRstep _ f
  | .aluSub _ f | .aluAdd _ f | .aluIncm _ f | .aluMplusm _ f => some f
  | .byteLow _ _ | .byteSeldep _ _ | .byteLdb _ _ | .byteDpb _ _
  | .jumpXctNext _ _ | .jump _ _ | .callXctNext _ _ | .call _ _ | .retXctNext _ _ | .ret _ _
  | .dispatch _ _ | .dispatchMir _ _ => none

/-- The JUMP format's own fields, for the six JUMP rows. -/
def Instr.jumpFields : Instr → Option JumpFields
  | .jumpXctNext _ f | .jump _ f | .callXctNext _ f | .call _ f | .retXctNext _ f | .ret _ f => some f
  | .aluSetz _ _ | .aluAnd _ _ | .aluAndca _ _ | .aluSetm _ _ | .aluSeta _ _ | .aluXor _ _
  | .aluIor _ _ | .aluSeto _ _ | .aluMstep _ _ | .aluDstep _ _ | .aluDfstep _ _ | .aluRstep _ _
  | .aluSub _ _ | .aluAdd _ _ | .aluIncm _ _ | .aluMplusm _ _
  | .byteLow _ _ | .byteSeldep _ _ | .byteLdb _ _ | .byteDpb _ _
  | .dispatch _ _ | .dispatchMir _ _ => none

end Sys2Proof
end

