-- ==== Sys2Proof/WellFormed.lean ====
section
/-! DEFINITION. Which terms of `Instr` are instructions. `wellFormed`: every operand code stands in the
range its constructor is for, so the term is the reading of some 56-bit word. `legal`: besides, no
operand code is outside the documented set of 30_encoding R157. -/

namespace Sys2Proof

/-- An undefined M source holds a code of 0x56..0x7F (R148). -/
def MSource.wellFormed : MSource → Bool
  | .undefined code => decide (0x56#7 ≤ code)
  | _ => true

/-- An undefined functional destination holds a code of 0x1B..0x3F (R149). -/
def FuncDest.wellFormed : FuncDest → Bool
  | .undefined code => decide (0x1B#6 ≤ code)
  | _ => true

def Dest.wellFormed : Dest → Bool
  | .a _ => true
  | .func f _ => f.wellFormed

/-- An undefined condition holds a code of 8..31 (R154). -/
def Condition.wellFormed : Condition → Bool
  | .undefined code => decide (8#5 ≤ code)
  | _ => true

def JumpTest.wellFormed : JumpTest → Bool
  | .cond c => c.wellFormed
  | .bit _ => true

def Instr.wellFormed (i : Instr) : Bool :=
  i.common.mSrc.wellFormed
    && (match i.dest with | some d => d.wellFormed | none => true)
    && (match i.jumpFields with | some f => f.test.wellFormed | none => true)

/-- The M source is one of R148's documented codes. -/
def MSource.legal : MSource → Bool
  | .undefined _ => false
  | _ => true

/-- The functional destination is one of R149's documented codes. -/
def FuncDest.legal : FuncDest → Bool
  | .undefined _ => false
  | _ => true

def Dest.legal : Dest → Bool
  | .a _ => true
  | .func f _ => f.legal

/-- The output selector is one of the modes 0..6 of R152. -/
def OutSel.legal : OutSel → Bool
  | .undefined => false
  | _ => true

/-- The condition is one of the codes 0..7 of R154. -/
def Condition.legal : Condition → Bool
  | .undefined _ => false
  | _ => true

def JumpTest.legal : JumpTest → Bool
  | .cond c => c.legal
  | .bit _ => true

/-- No operand code is outside the documented set (R157). -/
def Instr.legal (i : Instr) : Bool :=
  i.common.mSrc.legal
    && (match i.dest with | some d => d.legal | none => true)
    && (match i.aluFields with | some f => f.out.legal | none => true)
    && (match i.jumpFields with | some f => f.test.legal | none => true)

end Sys2Proof
end

