-- ==== Sys2Proof/Decode.lean ====
section
/-! DEFINITION. Decoding a 56-bit microinstruction and encoding one, both written from the field tables of
30_encoding (R141 to R155). A control-store slot is one 56-bit cell with no byte order (20_memory R82),
so the decoder reads the slot itself. -/

namespace Sys2Proof

/-- Why a word is no instruction of the table (R151, R155). Each is fatal when the word executes. -/
inductive Reject where
  /-- `ALUOP` is not one of the sixteen codes of R151. -/
  | illegalAluOpcode (code : BitVec 5)
  /-- `{R,P,N}` of a JUMP is 6 or 7 (R155). -/
  | illegalRpn (code : BitVec 3)
deriving DecidableEq, Repr

/-! ## Code tables -/

/-- R148. -/
def MSource.ofCode (code : BitVec 7) : MSource :=
  if code < 0x40#7 then .m (code.setWidth 6)
  else match code.toNat with
    | 0x40 => .md
    | 0x41 => .vma
    | 0x42 => .q
    | 0x43 => .lc
    | 0x44 => .macroIR
    | 0x45 => .dispatchConstant
    | 0x46 => .microStackPeek
    | 0x47 => .microStackPop
    | 0x48 => .pdlPointer
    | 0x49 => .pdlIndex
    | 0x4A => .cPdlPointer
    | 0x4B => .cPdlPointerPop
    | 0x4C => .cPdlIndex
    | 0x4D => .interruptPointer
    | 0x4E => .statCounter
    | 0x4F => .statCounterAux
    | 0x50 => .lv1Map
    | 0x51 => .lv2MapControl
    | 0x52 => .lv2MapAddress
    | 0x53 => .multiplierOutput
    | 0x54 => .dpMode
    | 0x55 => .rgMode
    | _ => .undefined code

/-- R148. -/
def MSource.code : MSource → BitVec 7
  | .m n => n.setWidth 7
  | .md => 0x40
  | .vma => 0x41
  | .q => 0x42
  | .lc => 0x43
  | .macroIR => 0x44
  | .dispatchConstant => 0x45
  | .microStackPeek => 0x46
  | .microStackPop => 0x47
  | .pdlPointer => 0x48
  | .pdlIndex => 0x49
  | .cPdlPointer => 0x4A
  | .cPdlPointerPop => 0x4B
  | .cPdlIndex => 0x4C
  | .interruptPointer => 0x4D
  | .statCounter => 0x4E
  | .statCounterAux => 0x4F
  | .lv1Map => 0x50
  | .lv2MapControl => 0x51
  | .lv2MapAddress => 0x52
  | .multiplierOutput => 0x53
  | .dpMode => 0x54
  | .rgMode => 0x55
  | .undefined code => code

/-- R149. -/
def FuncDest.ofCode (code : BitVec 6) : FuncDest :=
  match code.toNat with
  | 0x00 => .none
  | 0x01 => .lc
  | 0x02 => .dpMode
  | 0x03 => .rgMode
  | 0x04 => .pdlPointer
  | 0x05 => .pdlIndex
  | 0x06 => .cPdlPointer
  | 0x07 => .cPdlPointerPush
  | 0x08 => .cPdlIndex
  | 0x09 => .vma
  | 0x0A => .vmaStartRead
  | 0x0B => .vmaStartWrite
  | 0x0C => .vmaStartReadForce
  | 0x0D => .vmaStartWriteForce
  | 0x0E => .md
  | 0x0F => .lv1Map
  | 0x10 => .lv2MapControl
  | 0x11 => .lv2MapAddress
  | 0x12 => .cramLow
  | 0x13 => .cramHigh
  | 0x14 => .cramMap
  | 0x15 => .multiplierInput
  | 0x16 => .interruptClear
  | 0x17 => .statCounter
  | 0x18 => .statCounterAux
  | 0x19 => .imodLow
  | 0x1A => .imodHigh
  | _ => .undefined code

/-- R149. -/
def FuncDest.code : FuncDest → BitVec 6
  | .none => 0x00
  | .lc => 0x01
  | .dpMode => 0x02
  | .rgMode => 0x03
  | .pdlPointer => 0x04
  | .pdlIndex => 0x05
  | .cPdlPointer => 0x06
  | .cPdlPointerPush => 0x07
  | .cPdlIndex => 0x08
  | .vma => 0x09
  | .vmaStartRead => 0x0A
  | .vmaStartWrite => 0x0B
  | .vmaStartReadForce => 0x0C
  | .vmaStartWriteForce => 0x0D
  | .md => 0x0E
  | .lv1Map => 0x0F
  | .lv2MapControl => 0x10
  | .lv2MapAddress => 0x11
  | .cramLow => 0x12
  | .cramHigh => 0x13
  | .cramMap => 0x14
  | .multiplierInput => 0x15
  | .interruptClear => 0x16
  | .statCounter => 0x17
  | .statCounterAux => 0x18
  | .imodLow => 0x19
  | .imodHigh => 0x1A
  | .undefined code => code

/-- R149: bit 12 selects an A-memory word; else bits 11:6 are `F` and bits 5:0 the M address. -/
def Dest.ofCode (code : BitVec 13) : Dest :=
  if code.getLsbD 12 then .a (code.extractLsb' 0 12)
  else .func (FuncDest.ofCode (code.extractLsb' 6 6)) (code.extractLsb' 0 6)

/-- R149. -/
def Dest.code : Dest → BitVec 13
  | .a addr => 0x1000#13 ||| addr.setWidth 13
  | .func f m => f.code.setWidth 13 <<< 6 ||| m.setWidth 13

/-- R152. -/
def OutSel.ofCode (code : BitVec 3) : OutSel :=
  match code.toNat with
  | 0 => .pass
  | 1 => .shiftRight
  | 2 => .signExtend
  | 3 => .low11
  | 4 => .shiftLeft
  | 5 => .mirror
  | 6 => .masked
  | _ => .undefined

/-- R152. -/
def OutSel.code : OutSel → BitVec 3
  | .pass => 0
  | .shiftRight => 1
  | .signExtend => 2
  | .low11 => 3
  | .shiftLeft => 4
  | .mirror => 5
  | .masked => 6
  | .undefined => 7

/-- R153. -/
def QCtl.ofCode (code : BitVec 2) : QCtl :=
  match code.toNat with
  | 0 => .keep
  | 1 => .left
  | 2 => .right
  | _ => .load

/-- R153. -/
def QCtl.code : QCtl → BitVec 2
  | .keep => 0
  | .left => 1
  | .right => 2
  | .load => 3

/-- R154. -/
def Condition.ofCode (code : BitVec 5) : Condition :=
  match code.toNat with
  | 0 => .typeMismatch
  | 1 => .lt
  | 2 => .le
  | 3 => .ne
  | 4 => .noPf
  | 5 => .pfInt
  | 6 => .pfIntSb
  | 7 => .always
  | _ => .undefined code

/-- R154. -/
def Condition.code : Condition → BitVec 5
  | .typeMismatch => 0
  | .lt => 1
  | .le => 2
  | .ne => 3
  | .noPf => 4
  | .pfInt => 5
  | .pfIntSb => 6
  | .always => 7
  | .undefined code => code

/-- `TEST` and `COND` of R145. -/
def JumpTest.ofCode (test : Bool) (cond : BitVec 5) : JumpTest :=
  if test then .cond (Condition.ofCode cond) else .bit cond

/-- The `TEST` bit of R145. -/
def JumpTest.testBit : JumpTest → Bool
  | .cond _ => true
  | .bit _ => false

/-- The `COND` field of R145. -/
def JumpTest.code : JumpTest → BitVec 5
  | .cond c => c.code
  | .bit rot => rot

/-! ## Decoding -/

/-- R141. -/
def decodeCommon (w : Slot) : Common where
  halt := w.getLsbD 55
  pjan := w.getLsbD 54
  mf := w.getLsbD 53
  msa := w.getLsbD 52
  slowDest := w.getLsbD 51
  ilong := w.getLsbD 50
  aSrc := w.extractLsb' 36 12
  mSrc := MSource.ofCode (w.extractLsb' 29 7)

/-- R143. -/
def decodeAluFields (w : Slot) : AluFields where
  dest := Dest.ofCode (w.extractLsb' 16 13)
  out := OutSel.ofCode (w.extractLsb' 13 3)
  mask := w.getLsbD 12
  carry := w.getLsbD 6
  qctl := QCtl.ofCode (w.extractLsb' 4 2)

/-- R144. -/
def decodeByteFields (w : Slot) : ByteFields where
  dest := Dest.ofCode (w.extractLsb' 16 13)
  len := w.extractLsb' 5 6
  rot := w.extractLsb' 0 5

/-- R145. -/
def decodeJumpFields (w : Slot) : JumpFields where
  addr := w.extractLsb' 13 16
  inv := w.getLsbD 9
  test := JumpTest.ofCode (w.getLsbD 8) (w.extractLsb' 0 5)
  lpc := w.getLsbD 7

/-- R146. -/
def decodeDispatchFields (w : Slot) : DispatchFields where
  dconst := w.extractLsb' 19 10
  gcvEn := w.getLsbD 12
  oldEn := w.getLsbD 11
  dlen := w.extractLsb' 8 3
  lpc := w.getLsbD 7
  rot := w.extractLsb' 0 5

/-- `ALUOP` of R151; the other sixteen codes are no instruction. -/
def decodeAlu (code : BitVec 5) (c : Common) (f : AluFields) : Except Reject Instr :=
  match code.toNat with
  | 0x00 => .ok (.aluSetz c f)
  | 0x01 => .ok (.aluAnd c f)
  | 0x02 => .ok (.aluAndca c f)
  | 0x03 => .ok (.aluSetm c f)
  | 0x05 => .ok (.aluSeta c f)
  | 0x06 => .ok (.aluXor c f)
  | 0x07 => .ok (.aluIor c f)
  | 0x0F => .ok (.aluSeto c f)
  | 0x10 => .ok (.aluMstep c f)
  | 0x11 => .ok (.aluDstep c f)
  | 0x12 => .ok (.aluDfstep c f)
  | 0x15 => .ok (.aluRstep c f)
  | 0x16 => .ok (.aluSub c f)
  | 0x19 => .ok (.aluAdd c f)
  | 0x1C => .ok (.aluIncm c f)
  | 0x1F => .ok (.aluMplusm c f)
  | _ => .error (.illegalAluOpcode code)

/-- `RSRC` and `RMASK` of R144, named by R161. -/
def decodeByte (rsrc rmask : Bool) (c : Common) (f : ByteFields) : Instr :=
  match rsrc, rmask with
  | false, false => .byteLow c f
  | false, true => .byteSeldep c f
  | true, false => .byteLdb c f
  | true, true => .byteDpb c f

/-- `{R,P,N}` of R155; the codes 6 and 7 are no instruction. -/
def decodeJump (rpn : BitVec 3) (c : Common) (f : JumpFields) : Except Reject Instr :=
  match rpn.toNat with
  | 0 => .ok (.jumpXctNext c f)
  | 1 => .ok (.jump c f)
  | 2 => .ok (.callXctNext c f)
  | 3 => .ok (.call c f)
  | 4 => .ok (.retXctNext c f)
  | 5 => .ok (.ret c f)
  | _ => .error (.illegalRpn rpn)

/-- Decode one control-store slot: `OP` of R142, then the format's fields. Spare bits are ignored
(R158, log 21). -/
def decode (w : Slot) : Except Reject Instr :=
  match (w.extractLsb' 48 2).toNat with
  | 0 => decodeAlu (w.extractLsb' 7 5) (decodeCommon w) (decodeAluFields w)
  | 1 => decodeJump (w.extractLsb' 10 3) (decodeCommon w) (decodeJumpFields w)
  | 2 => .ok (if w.getLsbD 13 then .dispatchMir (decodeCommon w) (decodeDispatchFields w)
              else .dispatch (decodeCommon w) (decodeDispatchFields w))
  | _ => .ok (decodeByte (w.getLsbD 12) (w.getLsbD 11) (decodeCommon w) (decodeByteFields w))

/-- What the decoder reads from an instruction whose bits are `w`, `nbits` of them given by the table and
every bit above them 0. -/
def decodeTableWord (nbits w : Nat) : Option Instr :=
  match decode (BitVec.ofNat 56 (w % 2 ^ nbits)) with
  | .ok i => some i
  | .error _ => none

/-! ## Encoding -/

/-- A field's value shifted to its low bit position (R163). -/
def place {n : Nat} (v : BitVec n) (lo : Nat) : Slot := v.setWidth 56 <<< lo

/-- A one-bit field at its position. -/
def placeBit (b : Bool) (pos : Nat) : Slot := place (BitVec.ofBool b) pos

/-- Bits 55:29 of every format (R141). -/
def encodeCommon (op : BitVec 2) (c : Common) : Slot :=
  placeBit c.halt 55 ||| placeBit c.pjan 54 ||| placeBit c.mf 53 ||| placeBit c.msa 52
    ||| placeBit c.slowDest 51 ||| placeBit c.ilong 50 ||| place op 48 ||| place c.aSrc 36
    ||| place c.mSrc.code 29

/-- R143; the spare bits 3:0 are 0. -/
def encodeAlu (aluop : BitVec 5) (c : Common) (f : AluFields) : Slot :=
  encodeCommon 0 c ||| place f.dest.code 16 ||| place f.out.code 13 ||| placeBit f.mask 12
    ||| place aluop 7 ||| placeBit f.carry 6 ||| place f.qctl.code 4

/-- R144; the spare bits 15:13 are 0. -/
def encodeByte (rsrc rmask : Bool) (c : Common) (f : ByteFields) : Slot :=
  encodeCommon 3 c ||| place f.dest.code 16 ||| placeBit rsrc 12 ||| placeBit rmask 11
    ||| place f.len 5 ||| place f.rot 0

/-- R145; the spare bits 6:5 are 0. -/
def encodeJump (rpn : BitVec 3) (c : Common) (f : JumpFields) : Slot :=
  encodeCommon 1 c ||| place f.addr 13 ||| place rpn 10 ||| placeBit f.inv 9
    ||| placeBit f.test.testBit 8 ||| placeBit f.lpc 7 ||| place f.test.code 0

/-- R146; the spare bits 18:14 and 6:5 are 0. -/
def encodeDispatch (mir : Bool) (c : Common) (f : DispatchFields) : Slot :=
  encodeCommon 2 c ||| place f.dconst 19 ||| placeBit mir 13 ||| placeBit f.gcvEn 12
    ||| placeBit f.oldEn 11 ||| place f.dlen 8 ||| placeBit f.lpc 7 ||| place f.rot 0

/-- The word of an instruction (R163), spare bits 0. -/
def encode : Instr → Slot
  | .aluSetz c f => encodeAlu 0x00 c f
  | .aluAnd c f => encodeAlu 0x01 c f
  | .aluAndca c f => encodeAlu 0x02 c f
  | .aluSetm c f => encodeAlu 0x03 c f
  | .aluSeta c f => encodeAlu 0x05 c f
  | .aluXor c f => encodeAlu 0x06 c f
  | .aluIor c f => encodeAlu 0x07 c f
  | .aluSeto c f => encodeAlu 0x0F c f
  | .aluMstep c f => encodeAlu 0x10 c f
  | .aluDstep c f => encodeAlu 0x11 c f
  | .aluDfstep c f => encodeAlu 0x12 c f
  | .aluRstep c f => encodeAlu 0x15 c f
  | .aluSub c f => encodeAlu 0x16 c f
  | .aluAdd c f => encodeAlu 0x19 c f
  | .aluIncm c f => encodeAlu 0x1C c f
  | .aluMplusm c f => encodeAlu 0x1F c f
  | .byteLow c f => encodeByte false false c f
  | .byteSeldep c f => encodeByte false true c f
  | .byteLdb c f => encodeByte true false c f
  | .byteDpb c f => encodeByte true true c f
  | .jumpXctNext c f => encodeJump 0 c f
  | .jump c f => encodeJump 1 c f
  | .callXctNext c f => encodeJump 2 c f
  | .call c f => encodeJump 3 c f
  | .retXctNext c f => encodeJump 4 c f
  | .ret c f => encodeJump 5 c f
  | .dispatch c f => encodeDispatch false c f
  | .dispatchMir c f => encodeDispatch true c f

/-- The bits of a word that its format reads; the others are spare (R158). -/
def usedBits (w : Slot) : Slot :=
  match (w.extractLsb' 48 2).toNat with
  | 0 => ~~~0xF#56
  | 1 => ~~~0x60#56
  | 2 => ~~~0x7C060#56
  | _ => ~~~0xE000#56

end Sys2Proof
end

