-- ==== Sys2Proof/Config.lean ====
section
/-! DEFINITION. What an implementation fixes: the sizes of 00_scope R6 and the OPEN parameters of R8.
The OPEN parameters are a structure of plain data that `State` carries and no step writes, so that a
statement about every state holds for every value of them (log 5). -/

namespace Sys2Proof

/-- `CRAM_WORDS` of R6. -/
def cramWords : Nat := 65536
/-- `CRAM_MAP_ENTRIES`, `AMEM_WORDS`, `MMEM_WORDS`, `MID_WORDS`, `LV1_ENTRIES`, `LV2_ENTRIES` of R6 and
`HISTORY_WORDS`, `TRAM_WORDS` of R8: all 4096. -/
def tableWords : Nat := 4096
/-- `USTACK_ENTRIES` of R6. -/
def ustackEntries : Nat := 256
/-- `INT_VECTORS` of R6. -/
def intVectors : Nat := 256
/-- `SPY_SIZE` of R8, in bytes. -/
def spySize : Nat := 0x100
/-- The interrupt-status window is 256 words (R8 `INT_BASE`). -/
def intSize : Nat := 0x400

/-- `PJAN_CALL_FOLD` of R8: what a CALL does to an armed PJAN (44_microstack_pjan R390). -/
inductive PjanCallFold where
  | cancelPush
  | tailCall
  | popThenPush
deriving DecidableEq, Repr

/-- `GCV_COMPARE` of R8. The relation and the compared bits are both open (46_dispatch R437), so beside the
default any relation of the 2-bit level-1 generation `g` and the 6-bit cached generation `c` can be
given as a truth table: bit `64 * g + c` (log 6, DESIGN CHOICE, safe). -/
inductive GcvCompare where
  | generationGreater
  | table (t : BitVec 256)
deriving DecidableEq, Repr

/-- The OPEN parameters of R8 that a rule of the engine reads. -/
structure Config where
  midStallCycles : Nat
  pjanCallFold : PjanCallFold
  gcvCompare : GcvCompare
  mWriteMirrorsA : Bool
  lv1ValidGatesFault : Bool
  multSigned : Bool
deriving DecidableEq, Repr

/-- The defaults of R8. -/
def Config.default : Config where
  midStallCycles := 2
  pjanCallFold := .cancelPush
  gcvCompare := .generationGreater
  mWriteMirrorsA := true
  lv1ValidGatesFault := false
  multSigned := false

end Sys2Proof
end

