-- ==== Sys2Proof/Machine/State.lean ====
section
/-! DEFINITION. The state of one engine (10_state R20 to R58), the shared bus cells (R56) and the model's own
three fields (the OPEN parameters, the requests the arbiter has not granted, what the platform does in
the coming ticks). Plain data throughout. -/

namespace Sys2Proof.Machine

/-- Contents of one engine-owned memory: (address, cell) pairs in one canonical form, addresses strictly
rising and no cell equal to what an unlisted address reads as. Every such memory is word-addressed and
holds whole cells (20_memory R82), so a cell is one word of the memory's own width (log 14). -/
abbrev Cells (w : Nat) := List (Nat × BitVec w)

/-- What an address of an engine-owned memory that nothing has written reads as. The spec gives memory
contents no value after `initialize` (R60, U1); the model reads 0 (log 1, DESIGN CHOICE, unsafe). -/
def Cells.unlisted (w : Nat) : BitVec w := 0#w

/-- The kinds of bus request, 20_memory R111. -/
inductive BusKind where
  | readWord
  | writeWord
  | readByte
  | writeByte
deriving DecidableEq, Repr

/-- The engine's one outstanding transaction, R53 and R112. -/
inductive BusPending where
  | idle
  | dataRead
  | dataWrite
  | streamRead
deriving DecidableEq, Repr

/-- The shared bus cells, R56. `master` is an identifier, not a bit vector (log 15). -/
structure Bus where
  busy : Bool
  ack : Bool
  error : Bool
  master : Nat
  kind : BusKind
  address : BitVec 32
  data : Word
deriving DecidableEq, Repr

/-- One `issueBusRequest(kind, masterID, address, data)` call, R110. -/
structure BusRequest where
  kind : BusKind
  master : Nat
  address : BitVec 32
  data : Word
deriving DecidableEq, Repr

/-- One thing the platform does between two cycles of this engine (log 7). -/
inductive PlatformEvent where
  /-- The platform calls `initialize(cpu, busID)` (70_reset R530). -/
  | reset (busID : Fin 2)
  /-- The arbiter grants this engine's oldest request: it sets the cells from it (20_memory R123). -/
  | grant
  /-- The arbiter, a slave, another master or the other engine leaves these values in the cells. -/
  | cells (b : Bus)
deriving DecidableEq, Repr

/-- Register files: R21, R22. -/
structure Files where
  amem : Cells 32
  mmem : Cells 32
deriving DecidableEq, Repr

/-- Program counters and the instruction register: R24 to R28. -/
structure Pcs where
  nextPC : MicroAddr
  currentPC : MicroAddr
  afterNextPC : Option MicroAddr
  /-- `Some n`: PJAN is armed and fires after `n` more ticks; `n` is 0, 1 or 2 (R27). -/
  popjCountdown : Option (Fin 3)
  ir : Slot
  irForced : Bool
deriving DecidableEq, Repr

/-- Control store, its page map, and the macro-dispatch memory: R29, R30. -/
structure Store where
  cram : Cells 56
  cramMap : Cells 12
  mid : Cells 32
deriving DecidableEq, Repr

/-- Macro-instruction state: R31, R32. -/
structure Stream where
  macroIR : Word
  lc : Word
deriving DecidableEq, Repr

/-- Virtual-memory state: R33 to R38. -/
structure Vm where
  lv1 : Cells 10
  lv2c : Cells 16
  lv2a : Cells 24
  vma : Word
  md : Word
  pageFault : Bool
  physAddr : BitVec 30
  byteMode : Bool
  byteSel : BitVec 2
  cachedGeneration : BitVec 6
deriving DecidableEq, Repr

/-- Interrupt state: R39. -/
structure Intr where
  pending : BitVec 9
  status : Cells 1
  vector : BitVec 8
deriving DecidableEq, Repr

/-- The micro-return-stack: R40. -/
structure Ustack where
  ring : Cells 16
  ptr : BitVec 8
deriving DecidableEq, Repr

/-- Data-path registers: R41 to R44. -/
structure DataRegs where
  q : Word
  multIn : Word
  multFT : Word
  pdlPointer : BitVec 12
  pdlIndex : BitVec 12
  dispatchConstant : BitVec 10
deriving DecidableEq, Repr

/-- Mode registers and statistics counters: R45 to R49. Each mode register is one 32-bit word that keeps
every bit written; its fields are read by the accessors of Machine/Ops.lean. -/
structure Modes where
  dpMode : Word
  rgMode : Word
  configReg : Word
  procMode : Word
  statCounter : Word
  auxStatCounter : Word
deriving DecidableEq, Repr

/-- Stall flags: R50. They are independent bits. -/
structure Stalls where
  forceHold : Bool
  slowDest : Bool
  longInst : Bool
  nopNext : Bool
  csWrite : Bool
  macroDispatch : Nat
deriving DecidableEq, Repr

/-- Run state: R51. -/
structure Run where
  halted : Bool
  singleStepMode : Bool
  dieRequest : Bool
deriving DecidableEq, Repr

/-- The instruction-modify overlay: R52. -/
structure Overlay where
  low : Word
  high : BitVec 24
  pending : Bool
deriving DecidableEq, Repr

/-- Bus-client state, R53, and this engine's bus identifier, R8 and R60. -/
structure Client where
  busPending : BusPending
  busError : Bool
  busID : Fin 2
deriving DecidableEq, Repr

/-- Debug state: R54. -/
structure Debug where
  history : Cells 16
  historyPtr : BitVec 12
  tram : Cells 32
  spyCramAddr : MicroAddr
  spyTramAddr : BitVec 12
  spyHistAddr : BitVec 12
deriving DecidableEq, Repr

/-- `ProcessorState` (R20), the shared bus cells (R56), and the model's own `cfg`, `requests`, `inputs`. -/
structure State where
  files : Files
  pcs : Pcs
  store : Store
  stream : Stream
  vm : Vm
  intr : Intr
  ustack : Ustack
  data : DataRegs
  modes : Modes
  stalls : Stalls
  run : Run
  overlay : Overlay
  client : Client
  spyUnit : Debug
  /-- The shared bus cells. -/
  bus : Bus
  /-- The model's own: the OPEN parameters (log 5). -/
  cfg : Config
  /-- The model's own: requests handed to the arbiter and not yet granted, oldest first (log 9). -/
  requests : List BusRequest
  /-- The model's own: what the platform does in each coming tick, in order (log 7). -/
  inputs : List (List PlatformEvent)
deriving DecidableEq, Repr

/-- No step of this machine stops with a fault, so there is no constructor and nobody raises one: the
one fatal condition, `Die`, is a described change of state (60_exceptions R490) and is taken as a next
state (log 11, safe). -/
inductive Fault where
deriving DecidableEq, Repr

/-- Why a step gives no meaning to an instruction. -/
inductive Refusal where
  /-- Raised only by an arm of `exec` whose instruction has no meaning yet; no arm raises it (safe). -/
  | notModelled (mnemonic : String)
deriving DecidableEq, Repr

/-- The machine right after `initialize(cpu, 0)` (R60, 70_reset R531): every register at the value the
spec gives; `ir` 0 (log 2); memories with nothing listed (log 1); the cells of the bus, which
`initialize` does not touch, idle (log 4); the default parameters of 00_scope R8 (log 5); no request
handed out (log 9) and nothing yet known of the platform (log 7). -/
def State.reset : State where
  files := { amem := [], mmem := [] }
  pcs := { nextPC := 0, currentPC := 0, afterNextPC := none, popjCountdown := none, ir := 0, irForced := false }
  store := { cram := [], cramMap := [], mid := [] }
  stream := { macroIR := 0, lc := 0 }
  vm := { lv1 := [], lv2c := [], lv2a := [], vma := 0, md := 0, pageFault := false, physAddr := 0,
          byteMode := false, byteSel := 0, cachedGeneration := 0 }
  intr := { pending := 0, status := [], vector := 0 }
  ustack := { ring := [], ptr := 0 }
  data := { q := 0, multIn := 0, multFT := 0, pdlPointer := 0, pdlIndex := 0, dispatchConstant := 0 }
  modes := { dpMode := 0, rgMode := 0, configReg := 0, procMode := 0, statCounter := 0, auxStatCounter := 0 }
  stalls := { forceHold := false, slowDest := false, longInst := false, nopNext := false, csWrite := false,
              macroDispatch := 0 }
  run := { halted := true, singleStepMode := false, dieRequest := false }
  overlay := { low := 0, high := 0, pending := false }
  client := { busPending := .idle, busError := false, busID := 0 }
  spyUnit := { history := [], historyPtr := 0, tram := [], spyCramAddr := 0, spyTramAddr := 0, spyHistAddr := 0 }
  bus := { busy := false, ack := false, error := false, master := 0, kind := .readWord, address := 0, data := 0 }
  cfg := Config.default
  requests := []
  inputs := []

end Sys2Proof.Machine
end

