-- ==== Sys2Proof/Machine/Ops.lean ====
section
/-! DEFINITION. The shared operations over memories and registers: the cells of a memory, a cycle that may
die, taking the one fatal exception and the reset that ends it, and the micro-return-stack. -/

namespace Sys2Proof.Machine

/-! ## Memories -/

/-- The cell at an address; an unlisted address reads as `Cells.unlisted`. -/
def Cells.read {w : Nat} : Cells w → Nat → BitVec w
  | [], _ => Cells.unlisted w
  | (b, v) :: rest, a => if b = a then v else Cells.read rest a

/-- The memory with no entry for the address. -/
def Cells.erase {w : Nat} (m : Cells w) (a : Nat) : Cells w := m.filter (fun c => decide (c.1 ≠ a))

/-- Insert an entry before the first one at a higher address. -/
def Cells.insert {w : Nat} (a : Nat) (v : BitVec w) : Cells w → Cells w
  | [] => [(a, v)]
  | (b, x) :: rest => if a < b then (a, v) :: (b, x) :: rest else (b, x) :: Cells.insert a v rest

/-- Write a cell, keeping the canonical form: writing what an unlisted address reads as removes the
entry. -/
def Cells.write {w : Nat} (m : Cells w) (a : Nat) (v : BitVec w) : Cells w :=
  if v = Cells.unlisted w then m.erase a else Cells.insert a v (m.erase a)

/-- The canonical form: addresses strictly rising and below `bound`, no entry equal to an unlisted one. -/
def Cells.wf {w : Nat} (bound : Nat) : Cells w → Bool
  | [] => true
  | (a, v) :: rest =>
    decide (a < bound) && decide (v ≠ Cells.unlisted w)
      && (match rest with | [] => true | (b, _) :: _ => decide (a < b)) && Cells.wf bound rest

/-! ## A cycle that may die -/

/-- The eight causes of `Die`, 60_exceptions R491. The label is kept in no state (R490). -/
inductive DieCause where
  | illegalMSource
  | illegalAluOpcode
  | illegalOutputSelector
  | illegalDestination
  | illegalJumpCondition
  | illegalRpn
  | afterNextCollision
  | busIssueWhilePending
deriving DecidableEq, Repr

/-- What a part of a cycle answers: it goes on with a value, or raises `Die` in the state reached so far,
whose earlier effects stay (40_cycle R215). -/
inductive Flow (α : Type) where
  | go (a : α)
  | die (cause : DieCause) (s : State)
deriving Repr

/-- Go on with the next part unless the cycle died. -/
def Flow.bind {α β : Type} (x : Flow α) (f : α → Flow β) : Flow β :=
  match x with
  | .go a => f a
  | .die cause s => .die cause s

/-! ## The fatal exception and the reset that ends it -/

/-- Taking `Die` (R490): the two bits, nothing else. There is no trap entry beside it (R511). -/
def raiseDie (s : State) : State :=
  { s with run := { s.run with dieRequest := true, halted := true } }

/-- The end of a cycle that may have died. -/
def finish : Flow State → Host.Outcome State Fault Refusal
  | .go s => .next s
  | .die _ s => .next (raiseDie s)

/-- `initialize(cpu, busID)` (70_reset R530, R531, R533): the only way out of a die-request. There is no
return from an exception (60_exceptions R512). It leaves the memory arrays, the bus cells and the
model's own fields as they are; `ir`, unspecified afterwards, is 0 (log 2); see log 10. -/
def initEngine (busID : Fin 2) (s : State) : State :=
  { State.reset with
    files := s.files
    store := s.store
    vm := { State.reset.vm with lv1 := s.vm.lv1, lv2c := s.vm.lv2c, lv2a := s.vm.lv2a }
    ustack := { s.ustack with ptr := 0 }
    client := { State.reset.client with busID := busID }
    spyUnit := { State.reset.spyUnit with history := s.spyUnit.history, tram := s.spyUnit.tram }
    bus := s.bus
    cfg := s.cfg
    requests := s.requests
    inputs := s.inputs }

/-! ## Register files -/

def readA (s : State) (a : BitVec 12) : Word := s.files.amem.read a.toNat
def readM (s : State) (a : BitVec 12) : Word := s.files.mmem.read a.toNat

/-- Write one A-memory word, R21. -/
def writeA (a : BitVec 12) (v : Word) (s : State) : State :=
  { s with files := { s.files with amem := s.files.amem.write a.toNat v } }

/-- Write one M-memory word by a PDL address: no mirror, R23. -/
def writeM (a : BitVec 12) (v : Word) (s : State) : State :=
  { s with files := { s.files with mmem := s.files.mmem.write a.toNat v } }

/-- Write an M register through the destination field: M-memory and, by `M_WRITE_MIRRORS_A`, the A-memory
word of the same address (R23, 41 R263). -/
def writeMReg (m : BitVec 6) (v : Word) (s : State) : State :=
  let t := writeM (m.setWidth 12) v s
  if s.cfg.mWriteMirrorsA then writeA (m.setWidth 12) v t else t

/-! ## Fields of the mode registers -/

/-- `rgMode.INT_ENABLE`, R46. -/
def intEnable (s : State) : Bool := s.modes.rgMode.getLsbD 0
/-- `rgMode.SEQ_BREAK`, R46. -/
def seqBreak (s : State) : Bool := s.modes.rgMode.getLsbD 1
/-- `rgMode.STAT_TRIGGER`, R46. -/
def statTrigger (s : State) : BitVec 2 := s.modes.rgMode.extractLsb' 2 2
/-- `rgMode.AUX_STAT_TRIGGER`, R46. -/
def auxStatTrigger (s : State) : BitVec 2 := s.modes.rgMode.extractLsb' 4 2

/-! ## Control store -/

/-- The physical slot of a virtual micro-address, R29. -/
def slotOf (s : State) (u : MicroAddr) : MicroAddr :=
  s.store.cramMap.read (u.extractLsb' 4 12).toNat ++ u.extractLsb' 0 4

/-- The instruction a virtual micro-address maps to, R29 and 40_cycle R193. -/
def readCram (s : State) (u : MicroAddr) : Slot := s.store.cram.read (slotOf s u).toNat

/-- Replace bits 31:0 of the slot a micro-address maps to (41 R283, 47_spy R459). -/
def writeCramLow (u : MicroAddr) (v : Word) (s : State) : State :=
  { s with store := { s.store with
      cram := s.store.cram.write (slotOf s u).toNat ((readCram s u).extractLsb' 32 24 ++ v) } }

/-- Replace bits 55:32 of the slot a micro-address maps to (41 R284, 47_spy R459). -/
def writeCramHigh (u : MicroAddr) (v : BitVec 24) (s : State) : State :=
  { s with store := { s.store with
      cram := s.store.cram.write (slotOf s u).toNat (v ++ (readCram s u).extractLsb' 0 32) } }

/-- Replace the page-map entry of a micro-address (41 R285, 47_spy R460). -/
def writeCramMap (u : MicroAddr) (v : BitVec 12) (s : State) : State :=
  { s with store := { s.store with cramMap := s.store.cramMap.write (u.extractLsb' 4 12).toNat v } }

/-! ## The micro-return-stack, 44_microstack_pjan R380 to R382 -/

/-- `peek()`: the top entry. -/
def peek (s : State) : MicroAddr := s.ustack.ring.read s.ustack.ptr.toNat

/-- `push(addr)`: increment, then write. -/
def push (addr : MicroAddr) (s : State) : State :=
  { s with ustack := { ring := s.ustack.ring.write (s.ustack.ptr + 1).toNat addr, ptr := s.ustack.ptr + 1 } }

/-- The state after `pop()`, whose value is `peek`: the entry stays, the pointer decrements. -/
def dropTop (s : State) : State :=
  { s with ustack := { s.ustack with ptr := s.ustack.ptr - 1 } }

/-- The deferred return, done when PJAN fires (R387) and by the `MICRO_STACK_POP` fold (R391). -/
def deferredReturn (s : State) : Flow State :=
  match s.pcs.afterNextPC with
  | some _ => .die .afterNextCollision s
  | none => .go { dropTop s with pcs := { s.pcs with nextPC := peek s, popjCountdown := none } }

end Sys2Proof.Machine
end

