-- ==== Sys2Proof/Machine/Flags.lean ====
section
/-! DEFINITION. What the spec computes from operands: the wide ALU results with carry-out and overflow, the
mask flag, the output selector, the Q update (42_alu), the shifter (43_byte), and the conditions of a
JUMP (45_jump). -/

namespace Sys2Proof.Machine

/-! ## ALU results, 42_alu R310 to R331 -/

/-- `(result33, overflowFlag)` of `aluOp`; the carry-out is bit 32 (R330). -/
structure AluResult where
  wide : BitVec 33
  overflow : Bool
deriving DecidableEq, Repr

/-- A logical result: the carry-out is the sign bit (R330). -/
def aluLogical (r : Word) : AluResult := { wide := BitVec.ofBool r.msb ++ r, overflow := false }

/-- The low 33 bits of the unsigned sum of two words and a carry-in (R330). -/
def wideSum (x y : Word) (cin : Bool) : BitVec 33 :=
  x.setWidth 33 + y.setWidth 33 + (BitVec.ofBool cin).setWidth 33

/-- An arithmetic result with no overflow flag (R326). -/
def aluArith (w : BitVec 33) : AluResult := { wide := w, overflow := false }

/-- The fixnum-overflow flag of ADD: the operands agree in sign and the 32-bit result does not (R326). -/
def addOverflow (a m : Word) (w : BitVec 33) : Bool :=
  (a.getLsbD 31 == m.getLsbD 31) && (w.getLsbD 31 != m.getLsbD 31)

/-- The type of an ALU operation: A, M, carry-in, `Q[0]`. -/
abbrev AluOp := Word → Word → Bool → Bool → AluResult

/-- R311. -/
def aluOpSetz : AluOp := fun _ _ _ _ => aluLogical 0
/-- R312. -/
def aluOpAnd : AluOp := fun a m _ _ => aluLogical (m &&& a)
/-- R313. -/
def aluOpAndca : AluOp := fun a m _ _ => aluLogical (m &&& ~~~a)
/-- R314. -/
def aluOpSetm : AluOp := fun _ m _ _ => aluLogical m
/-- R315. -/
def aluOpSeta : AluOp := fun a _ _ _ => aluLogical a
/-- R316. -/
def aluOpXor : AluOp := fun a m _ _ => aluLogical (m ^^^ a)
/-- R317. -/
def aluOpIor : AluOp := fun a m _ _ => aluLogical (m ||| a)
/-- R318. -/
def aluOpSeto : AluOp := fun _ _ _ _ => aluLogical (BitVec.allOnes 32)
/-- R319. -/
def aluOpMstep : AluOp := fun a m _ q0 => aluArith (if q0 then wideSum m a false else m.setWidth 33)
/-- R320. -/
def aluOpDstep : AluOp := fun a m _ q0 => aluArith (if q0 then wideSum m (~~~a) true else wideSum m a false)
/-- R321. -/
def aluOpDfstep : AluOp := fun a m _ _ => aluArith (wideSum m (~~~a) true)
/-- R322. -/
def aluOpRstep : AluOp := fun a m _ q0 => aluArith (if q0 then m.setWidth 33 else wideSum m a false)
/-- R323. -/
def aluOpSub : AluOp := fun a m cin _ => aluArith (wideSum m (~~~a) cin)
/-- R324. -/
def aluOpAdd : AluOp := fun a m cin _ =>
  { wide := wideSum m a cin, overflow := addOverflow a m (wideSum m a cin) }
/-- R325. -/
def aluOpIncm : AluOp := fun _ m cin _ => aluArith (wideSum m 0 cin)
/-- R327. -/
def aluOpMplusm : AluOp := fun _ m cin _ => aluArith (wideSum m m cin)

/-- Bits 31:25 of `a` over bits 24:0 of `r`: the mask-flag merge (R332). -/
def maskMerge (a r : Word) : Word := a.extractLsb' 25 7 ++ r.extractLsb' 0 25

/-- The 32-bit result after the mask flag (R310, R332). -/
def maskedResult (mask : Bool) (a : Word) (w : BitVec 33) : Word :=
  if mask then maskMerge a (w.setWidth 32) else w.setWidth 32

/-! ## Output selector, R335 to R342 -/

/-- `outputSelector(mode, r32, carry, A, Q)`; `none` is the illegal mode 7. -/
def outputSelector (out : OutSel) (r32 : Word) (carry : Bool) (a q : Word) : Option Word :=
  match out with
  | .pass => some r32
  | .shiftRight => some (BitVec.ofBool carry ++ r32.extractLsb' 1 31)
  | .signExtend => some ((r32.extractLsb' 0 25).signExtend 32)
  | .low11 => some (r32 &&& 0x7FF)
  | .shiftLeft => some (r32.extractLsb' 0 31 ++ BitVec.ofBool (q.getLsbD 31))
  | .mirror => some r32.reverse
  | .masked => some (maskMerge a r32)
  | .undefined => none

/-! ## Q update, R345 to R348 -/

/-- `updateQ(qctl, Q, r32)`. -/
def updateQ (qctl : QCtl) (q r32 : Word) : Word :=
  match qctl with
  | .keep => q
  | .left => q.extractLsb' 0 31 ++ BitVec.ofBool (!r32.getLsbD 31)
  | .right => BitVec.ofBool (r32.getLsbD 0) ++ q.extractLsb' 1 31
  | .load => r32

/-! ## The shifter, 43_byte R360 and R361 -/

/-- `LEFT[j]`: ones in bits `j-1..0`, for `j` in 0..32. -/
def leftMask (j : Nat) : Word := BitVec.ofNat 32 (2 ^ j - 1)

/-- `RIGHT[i]`: ones in bits `31..i`, for `i` in 0..32. -/
def rightMask (i : Nat) : Word := BitVec.allOnes 32 <<< i

/-- `LEFT[li] & RIGHT[ri]`. -/
def shiftMask (rot : BitVec 5) (len : BitVec 6) (rmask : Bool) : Word :=
  let ri := if rmask then rot.toNat else 0
  leftMask ((ri + len.toNat) % 33) &&& rightMask ri

/-- `shift(A, M, rotate, length, rotateMaskFlag, rotateSourceFlag)`. -/
def shift (a m : Word) (rot : BitVec 5) (len : BitVec 6) (rmask rsrc : Bool) : Word :=
  let mrot := if rsrc then m.rotateLeft rot.toNat else m
  (mrot &&& shiftMask rot len rmask) ||| (a &&& ~~~ shiftMask rot len rmask)

/-! ## Conditions of a JUMP, 45_jump R401 to R410 -/

/-- Page fault or interrupt pending (R406). -/
def pfOrInt (s : State) : Bool := s.vm.pageFault || (s.intr.pending != 0)

/-- A named condition before `INV`; `none` is an illegal code (R409). -/
def conditionHolds (c : Condition) (a m : Word) (s : State) : Option Bool :=
  match c with
  | .typeMismatch => some (m.extractLsb' 25 7 != a.extractLsb' 25 7)
  | .lt => some (m.slt a)
  | .le => some (m.sle a)
  | .ne => some (m != a)
  | .noPf => some (!s.vm.pageFault)
  | .pfInt => some (pfOrInt s)
  | .pfIntSb => some (pfOrInt s || seqBreak s)
  | .always => some true
  | .undefined _ => none

/-- What a JUMP tests, before `INV` (R400): a named condition, or bit 0 of M rotated left (R410). -/
def testHolds (t : JumpTest) (a m : Word) (s : State) : Option Bool :=
  match t with
  | .cond c => conditionHolds c a m s
  | .bit rot => some ((m.rotateLeft rot.toNat).getLsbD 0)

end Sys2Proof.Machine
end

