-- ==== Sys2Proof/Machine/Interrupts.lean ====
section
/-! DEFINITION. The interrupt state machine and its bus-slave window (60_exceptions R500 to R505, 20_memory
R121). -/

namespace Sys2Proof.Machine

/-- `SPY_BASE(busID)` of 00_scope R8, as a byte address. -/
def spyBase (busID : Fin 2) : Nat := (0xF0 + busID.val) * 2 ^ 24

/-- `INT_BASE(busID)` of 00_scope R8. -/
def intBase (busID : Fin 2) : Nat := spyBase busID + 0x400

/-- `intStatus[v]`. -/
def intStatus (s : State) (v : BitVec 8) : BitVec 1 := s.intr.status.read v.toNat

/-- The lowest index whose status bit is set (R504). -/
def lowestPending (status : Cells 1) : Option Nat :=
  (List.range intVectors).find? (fun i => status.read i == 1#1)

/-- Recompute the active vector; with nothing pending it keeps its value (R504). -/
def recomputeVector (s : State) : State :=
  match lowestPending s.intr.status with
  | some i => { s with intr := { s.intr with vector := BitVec.ofNat 8 i } }
  | none => s

/-- Set a status bit and count it. -/
def markPending (v : BitVec 8) (s : State) : State :=
  { s with intr := { s.intr with status := s.intr.status.write v.toNat 1, pending := s.intr.pending + 1 } }

/-- Clear a status bit and uncount it. -/
def unmarkPending (v : BitVec 8) (s : State) : State :=
  { s with intr := { s.intr with status := s.intr.status.write v.toNat 0, pending := s.intr.pending - 1 } }

/-- A write of bit 0 = `d` to vector `v` of the window (R501). -/
def intWrite (v : BitVec 8) (d : Bool) (s : State) : State :=
  recomputeVector
    (if d then
      if intEnable s && (intStatus s v == 0) then markPending v s else s
    else
      if intStatus s v == 1 then unmarkPending v s else s)

/-- The `INTERRUPT_CLEAR` destination (R503, 41 R287). -/
def intClear (s : State) : State :=
  recomputeVector (if intStatus s s.intr.vector == 1 then unmarkPending s.intr.vector s else s)

/-- The SPY reset-interrupt-counter effect (47_spy R465): the vector keeps its value. -/
def intResetCounter (s : State) : State :=
  { s with intr := { s.intr with pending := 0, status := [] } }

/-- A bus request that no slave has answered stands in `[base, base + size)` (20_memory R120, R121). -/
def windowHit (s : State) (base size : Nat) : Bool :=
  s.bus.busy && !s.bus.ack && !s.bus.error
    && decide (base ≤ s.bus.address.toNat) && decide (s.bus.address.toNat < base + size)

/-- The request is addressed to the interrupt-status window (R121). -/
def intSelected (s : State) : Bool := windowHit s (intBase s.client.busID) intSize

/-- The vector a window request names (R121). -/
def intWindowVector (s : State) : BitVec 8 :=
  (s.bus.address - BitVec.ofNat 32 (intBase s.client.busID)).extractLsb' 2 8

/-- Serve the interrupt-status window (R121, R501, R502); it does not end the cycle. -/
def interruptWindow (s : State) : State :=
  if intSelected s then
    let v := intWindowVector s
    match s.bus.kind with
    | .writeWord | .writeByte =>
      let t := intWrite v (s.bus.data.getLsbD 0) s
      { t with bus := { t.bus with ack := true } }
    | .readWord | .readByte =>
      { s with bus := { s.bus with ack := true, data := (intStatus s v).setWidth 32 } }
  else s

end Sys2Proof.Machine
end

