-- ==== Sys2Proof/Machine/Vm.lean ====
section
/-! DEFINITION. The two-level translator (20_memory R90 to R101) and the bus client: issue and service
(R110 to R118). -/

namespace Sys2Proof.Machine

/-- `accessKind` of R90. -/
inductive AccessKind where
  | read
  | write
deriving DecidableEq, Repr

/-- The level-1 entry of a virtual address, R91. -/
def lv1Entry (s : State) (v : Word) : BitVec 10 := s.vm.lv1.read (v.extractLsb' 13 12).toNat

/-- `lv2index(v)` of R92. -/
def lv2Index (s : State) (v : Word) : BitVec 12 :=
  (lv1Entry s v).extractLsb' 0 7 ++ v.extractLsb' 8 5

/-- The level-2 control entry of a virtual address, R92. -/
def lv2Control (s : State) (v : Word) : BitVec 16 := s.vm.lv2c.read (lv2Index s v).toNat

/-- The level-2 address entry of a virtual address, R94. -/
def lv2Address (s : State) (v : Word) : BitVec 24 := s.vm.lv2a.read (lv2Index s v).toNat

/-- The access rights of R97: does the access field refuse this kind of access. -/
def accessRefused (access : BitVec 2) (kind : AccessKind) (override : Bool) : Bool :=
  match access.toNat with
  | 0 => true
  | 1 => (kind == .read) && !override
  | 2 => (kind == .write) && !override
  | _ => false

/-- `fault` of R94: the access field, and by `LV1_VALID_GATES_FAULT` a clear level-1 valid bit (R96). -/
def translationFaults (s : State) (vma : Word) (kind : AccessKind) (force : Bool) : Bool :=
  accessRefused ((lv2Control s vma).extractLsb' 9 2) kind (force && (lv2Control s vma).getLsbD 11)
    || (s.cfg.lv1ValidGatesFault && !(lv1Entry s vma).getLsbD 9)

/-- `resolve(vma, kind, force)` of R94: `cachedGeneration` always, the address latches on success only. -/
def resolve (vma : Word) (kind : AccessKind) (force : Bool) (s : State) : State :=
  if translationFaults s vma kind force then
    { s with vm := { s.vm with
        cachedGeneration := (lv2Control s vma).extractLsb' 0 6
        pageFault := true } }
  else
    { s with vm := { s.vm with
        cachedGeneration := (lv2Control s vma).extractLsb' 0 6
        pageFault := false
        physAddr := (lv2Address s vma).extractLsb' 0 22 ++ vma.extractLsb' 0 8
        byteMode := (lv2Address s vma).extractLsb' 22 2 != 0
        byteSel := (lv2Address s vma).extractLsb' 22 2 } }

/-- The bus byte address of R114. -/
def busAddress (s : State) : BitVec 32 :=
  s.vm.physAddr ++ (if s.vm.byteMode then s.vm.byteSel else 0#2)

/-- The request kind of R111 and R113. -/
def requestKind (kind : AccessKind) (byteMode : Bool) : BusKind :=
  match kind, byteMode with
  | .read, false => .readWord
  | .read, true => .readByte
  | .write, false => .writeWord
  | .write, true => .writeByte

/-- Issue a request for the latched address (R113): hand it to the arbiter, remember what is
outstanding. -/
def issue (kind : AccessKind) (pend : BusPending) (s : State) : State :=
  { s with
    requests := s.requests ++
      [{ kind := requestKind kind s.vm.byteMode, master := s.client.busID.val, address := busAddress s,
         data := match kind with | .write => s.vm.md | .read => 0 }]
    client := { s.client with busPending := pend } }

/-- A memory operation (R113): load VMA, translate it, and unless it faults issue one request. -/
def startAccess (vma : Word) (kind : AccessKind) (force : Bool) (pend : BusPending) (s : State) : Flow State :=
  let t := resolve vma kind force { s with vm := { s.vm with vma := vma } }
  if t.vm.pageFault then .go t
  else if t.client.busPending = .idle then .go (issue kind pend t)
  else .die .busIssueWhilePending t

/-- The engine owns the bus and has a transaction outstanding (R115). -/
def ownsBus (s : State) : Bool :=
  (s.client.busPending != .idle) && s.bus.busy && (s.bus.master == s.client.busID.val)

/-- Step 1, the service step of R115 to R118. -/
def serviceBus (s : State) : State :=
  if ownsBus s then
    let done := s.bus.ack || s.bus.error
    { s with
      vm := { s.vm with md := if s.client.busPending = .dataWrite then s.vm.md else s.bus.data }
      stream := { s.stream with
        macroIR := if s.client.busPending = .streamRead && s.bus.ack then s.bus.data else s.stream.macroIR }
      bus := { s.bus with busy := !done }
      client := { s.client with
        busError := s.bus.error
        busPending := if done then .idle else s.client.busPending } }
  else { s with client := { s.client with busError := false } }

/-- The macro instruction stream, step 6 (40_cycle R198). -/
def streamStep (advance : Bool) (s : State) : Flow State :=
  if advance then
    (startAccess ((s.stream.lc.extractLsb' 2 25).setWidth 32) .read false .streamRead s).bind fun t =>
      .go { t with stream := { t.stream with lc := t.stream.lc + 2 } }
  else .go s

end Sys2Proof.Machine
end

