-- ==== Sys2Proof/Machine/Operands.lean ====
section
/-! DEFINITION. Every operand form: the M sources (41_sources_destinations R231 to R258), the destinations
(R260 to R292), the control transfers (45_jump R411 to R418), and the end of a cycle (40_cycle R210 to
R214). -/

namespace Sys2Proof.Machine

/-! ## Sources, step 7 -/

/-- The value an M source drives onto the M bus in a state, narrower values zero-extended (R232). The
undefined source has none: `mOperand` never asks for it. -/
def sourceValue (src : MSource) (s : State) : Word :=
  match src with
  | .m n => readM s (n.setWidth 12)
  | .md => s.vm.md
  | .vma => s.vm.vma
  | .q => s.data.q
  | .lc => s.stream.lc
  | .macroIR => s.stream.macroIR
  | .dispatchConstant => s.data.dispatchConstant.setWidth 32
  | .microStackPeek => (peek s).setWidth 32
  | .microStackPop => (peek s).setWidth 32
  | .pdlPointer => s.data.pdlPointer.setWidth 32
  | .pdlIndex => s.data.pdlIndex.setWidth 32
  | .cPdlPointer => readM s s.data.pdlPointer
  | .cPdlPointerPop => readM s s.data.pdlPointer
  | .cPdlIndex => readM s s.data.pdlIndex
  | .interruptPointer => s.intr.vector.setWidth 32
  | .statCounter => s.modes.statCounter
  | .statCounterAux => s.modes.auxStatCounter
  | .lv1Map => (lv1Entry s s.vm.md).setWidth 32
  | .lv2MapControl => (lv2Control s s.vm.md).setWidth 32
  | .lv2MapAddress => (lv2Address s s.vm.md).setWidth 32
  | .multiplierOutput => s.data.multFT
  | .dpMode => s.modes.dpMode
  | .rgMode => s.modes.rgMode
  | .undefined _ => 0

/-- The pop of `MICRO_STACK_POP` (R243): the source's own pop, and with PJAN armed the deferred return at
once (44_microstack_pjan R391). -/
def microStackPop (s : State) : Flow State :=
  match s.pcs.popjCountdown with
  | some _ => deferredReturn (dropTop s)
  | none => .go (dropTop s)

/-- The M operand (40_cycle R200): the value, and the state after the source's side effect. -/
def mOperand (src : MSource) (s : State) : Flow (Word × State) :=
  match src with
  | .undefined _ => .die .illegalMSource s
  | .microStackPop => (microStackPop s).bind fun t => .go (sourceValue src s, t)
  | .cPdlPointerPop =>
    .go (sourceValue src s, { s with data := { s.data with pdlPointer := s.data.pdlPointer - 1 } })
  | _ => .go (sourceValue src s, s)

/-! ## Destinations, step 9 -/

/-- The flow-through product of the multiplier input (R286). -/
def product (signed : Bool) (v : Word) : Word :=
  if signed then (v.extractLsb' 0 16).signExtend 32 * (v.extractLsb' 16 16).signExtend 32
  else (v.extractLsb' 0 16).setWidth 32 * (v.extractLsb' 16 16).setWidth 32

/-- The level-1 map window, addressed by MD (R280). -/
def writeLv1 (v : BitVec 10) (s : State) : State :=
  { s with vm := { s.vm with lv1 := s.vm.lv1.write (s.vm.md.extractLsb' 13 12).toNat v } }

/-- The level-2 control window, addressed by MD (R281). -/
def writeLv2Control (v : BitVec 16) (s : State) : State :=
  { s with vm := { s.vm with lv2c := s.vm.lv2c.write (lv2Index s s.vm.md).toNat v } }

/-- The level-2 address window, addressed by MD (R282). -/
def writeLv2Address (v : BitVec 24) (s : State) : State :=
  { s with vm := { s.vm with lv2a := s.vm.lv2a.write (lv2Index s s.vm.md).toNat v } }

/-- A control-store destination makes the next cycle a stall (R283 to R285). -/
def armCsWrite (s : State) : State := { s with stalls := { s.stalls with csWrite := true } }

/-- The functional half of a destination (R265 to R292). -/
def funcDest (f : FuncDest) (o : Word) (s : State) : Flow State :=
  match f with
  | .none => .go s
  | .lc => .go { s with stream := { s.stream with lc := o } }
  | .dpMode => .go { s with modes := { s.modes with dpMode := o } }
  | .rgMode => .go { s with modes := { s.modes with rgMode := o } }
  | .pdlPointer => .go { s with data := { s.data with pdlPointer := o.extractLsb' 0 12 } }
  | .pdlIndex => .go { s with data := { s.data with pdlIndex := o.extractLsb' 0 12 } }
  | .cPdlPointer => .go (writeM s.data.pdlPointer o s)
  | .cPdlPointerPush =>
    .go (writeM (s.data.pdlPointer + 1) o
      { s with data := { s.data with pdlPointer := s.data.pdlPointer + 1 } })
  | .cPdlIndex => .go (writeM s.data.pdlIndex o s)
  | .vma => .go { s with vm := { s.vm with vma := o } }
  | .vmaStartRead => startAccess o .read false .dataRead s
  | .vmaStartWrite => startAccess o .write false .dataWrite s
  | .vmaStartReadForce => startAccess o .read true .dataRead s
  | .vmaStartWriteForce => startAccess o .write true .dataWrite s
  | .md => .go { s with vm := { s.vm with md := o } }
  | .lv1Map => .go (writeLv1 (o.extractLsb' 0 10) s)
  | .lv2MapControl => .go (writeLv2Control (o.extractLsb' 0 16) s)
  | .lv2MapAddress => .go (writeLv2Address (o.extractLsb' 0 24) s)
  | .cramLow => .go (armCsWrite (writeCramLow (peek s) o s))
  | .cramHigh => .go (armCsWrite (writeCramHigh (peek s) (o.extractLsb' 0 24) s))
  | .cramMap => .go (armCsWrite (writeCramMap (peek s) (o.extractLsb' 0 12) s))
  | .multiplierInput =>
    .go { s with data := { s.data with multIn := o, multFT := product s.cfg.multSigned o } }
  | .interruptClear => .go (intClear s)
  | .statCounter => .go { s with modes := { s.modes with statCounter := o } }
  | .statCounterAux => .go { s with modes := { s.modes with auxStatCounter := o } }
  | .imodLow => .go { s with overlay := { s.overlay with low := s.overlay.low ||| o, pending := true } }
  | .imodHigh =>
    .go { s with overlay := { s.overlay with high := s.overlay.high ||| o.extractLsb' 0 24, pending := true } }
  | .undefined _ => .die .illegalDestination s

/-- Writeback (R260 to R264): an A-memory word alone, or the functional destination and then the M
register. -/
def writeback (d : Dest) (o : Word) (s : State) : Flow State :=
  match d with
  | .a addr => .go (writeA addr o s)
  | .func f m => (funcDest f o s).bind fun t => .go (writeMReg m o t)

/-! ## Control transfers -/

/-- The six transfers of R155. -/
inductive Transfer where
  | jumpXctNext
  | jump
  | callXctNext
  | call
  | retXctNext
  | ret
deriving DecidableEq, Repr

/-- `{R,P,N}` of R155; 6 and 7 are illegal. -/
def transferOf (rpn : BitVec 3) : Option Transfer :=
  match rpn.toNat with
  | 0 => some .jumpXctNext
  | 1 => some .jump
  | 2 => some .callXctNext
  | 3 => some .call
  | 4 => some .retXctNext
  | 5 => some .ret
  | _ => none

/-- A plain transfer: the next address, and the NOP-next stall (R412). -/
def goTo (target : MicroAddr) (s : State) : State :=
  { s with pcs := { s.pcs with nextPC := target }, stalls := { s.stalls with nopNext := true } }

/-- An execute-next transfer: the after-next slot, which must be empty (R411, R418). -/
def goAfterNext (target : MicroAddr) (s : State) : Flow State :=
  match s.pcs.afterNextPC with
  | some _ => .die .afterNextCollision s
  | none => .go { s with pcs := { s.pcs with afterNextPC := some target } }

/-- Push a CALL's return address; with PJAN armed, fold it by `PJAN_CALL_FOLD` (R390). -/
def pushReturn (addr : MicroAddr) (s : State) : State :=
  match s.pcs.popjCountdown with
  | none => push addr s
  | some _ =>
    let t := { s with pcs := { s.pcs with popjCountdown := none } }
    match s.cfg.pjanCallFold with
    | .cancelPush => push addr t
    | .tailCall => t
    | .popThenPush => push addr (dropTop t)

/-- `transfer(rpn, target, lpc)` of 45_jump section 3. -/
def transfer (tr : Transfer) (target : MicroAddr) (lpc : Bool) (s : State) : Flow State :=
  match tr with
  | .jumpXctNext => goAfterNext target s
  | .jump => .go (goTo target s)
  | .callXctNext =>
    goAfterNext target (pushReturn (if lpc then s.pcs.currentPC else s.pcs.nextPC + 1) s)
  | .call => .go (goTo target (pushReturn (if lpc then s.pcs.currentPC else s.pcs.nextPC) s))
  | .retXctNext => goAfterNext (peek s) (dropTop s)
  | .ret => .go (goTo (peek s) (dropTop s))

/-! ## End of the cycle, step 11 -/

/-- Stall arming, PJAN arming and halting by the common bits (40_cycle R210, R211, R213, R214;
44_microstack_pjan R385). -/
def endOfCycle (c : Common) (s : State) : State :=
  { s with
    stalls := { s.stalls with
      slowDest := c.slowDest || s.stalls.slowDest
      longInst := c.ilong || s.stalls.longInst }
    pcs := { s.pcs with
      popjCountdown := if c.pjan then some (if c.slowDest then 2 else 1) else s.pcs.popjCountdown }
    run := { s.run with halted := c.halt || s.run.singleStepMode || s.run.halted } }

/-- Steps 6 and 7 (40_cycle R198 to R200): the macro-stream step, then the A and M operands and the state
after them. -/
def fetchOperands (c : Common) (s : State) : Flow (Word × Word × State) :=
  (streamStep (c.mf || c.msa) s).bind fun s6 =>
    (mOperand c.mSrc s6).bind fun p => .go (readA s6 c.aSrc, p.1, p.2)

end Sys2Proof.Machine
end

