-- ==== Sys2Proof/Machine/Alu.lean ====
section
/-! DEFINITION. The sixteen ALU instructions, 42_alu. -/

namespace Sys2Proof.Machine

/-- An ALU instruction from step 6 to step 11, 42_alu R310: operands, result, mask flag, output selector,
writeback, Q update, end of cycle. The overflow flag is computed and read by nothing (R326). -/
def runAlu (op : AluOp) (c : Common) (f : AluFields) (s : State) : Host.Outcome State Fault Refusal :=
  finish <| (fetchOperands c s).bind fun (a, m, s7) =>
    let w := (op a m f.carry (s7.data.q.getLsbD 0)).wide
    let r32 := maskedResult f.mask a w
    match outputSelector f.out r32 (w.getLsbD 32) a s7.data.q with
    | none => .die .illegalOutputSelector s7
    | some o =>
      (writeback f.dest o s7).bind fun s9 =>
        .go (endOfCycle c { s9 with data := { s9.data with q := updateQ f.qctl s9.data.q r32 } })

/-- R311. -/
def execAluSetz (c : Common) (f : AluFields) (s : State) : Host.Outcome State Fault Refusal :=
  runAlu aluOpSetz c f s

/-- R312. -/
def execAluAnd (c : Common) (f : AluFields) (s : State) : Host.Outcome State Fault Refusal :=
  runAlu aluOpAnd c f s

/-- R313. -/
def execAluAndca (c : Common) (f : AluFields) (s : State) : Host.Outcome State Fault Refusal :=
  runAlu aluOpAndca c f s

/-- R314. -/
def execAluSetm (c : Common) (f : AluFields) (s : State) : Host.Outcome State Fault Refusal :=
  runAlu aluOpSetm c f s

/-- R315. -/
def execAluSeta (c : Common) (f : AluFields) (s : State) : Host.Outcome State Fault Refusal :=
  runAlu aluOpSeta c f s

/-- R316. -/
def execAluXor (c : Common) (f : AluFields) (s : State) : Host.Outcome State Fault Refusal :=
  runAlu aluOpXor c f s

/-- R317. -/
def execAluIor (c : Common) (f : AluFields) (s : State) : Host.Outcome State Fault Refusal :=
  runAlu aluOpIor c f s

/-- R318. -/
def execAluSeto (c : Common) (f : AluFields) (s : State) : Host.Outcome State Fault Refusal :=
  runAlu aluOpSeto c f s

/-- R319. -/
def execAluMstep (c : Common) (f : AluFields) (s : State) : Host.Outcome State Fault Refusal :=
  runAlu aluOpMstep c f s

/-- R320. -/
def execAluDstep (c : Common) (f : AluFields) (s : State) : Host.Outcome State Fault Refusal :=
  runAlu aluOpDstep c f s

/-- R321. -/
def execAluDfstep (c : Common) (f : AluFields) (s : State) : Host.Outcome State Fault Refusal :=
  runAlu aluOpDfstep c f s

/-- R322. -/
def execAluRstep (c : Common) (f : AluFields) (s : State) : Host.Outcome State Fault Refusal :=
  runAlu aluOpRstep c f s

/-- R323. -/
def execAluSub (c : Common) (f : AluFields) (s : State) : Host.Outcome State Fault Refusal :=
  runAlu aluOpSub c f s

/-- R324. -/
def execAluAdd (c : Common) (f : AluFields) (s : State) : Host.Outcome State Fault Refusal :=
  runAlu aluOpAdd c f s

/-- R325. -/
def execAluIncm (c : Common) (f : AluFields) (s : State) : Host.Outcome State Fault Refusal :=
  runAlu aluOpIncm c f s

/-- R327. -/
def execAluMplusm (c : Common) (f : AluFields) (s : State) : Host.Outcome State Fault Refusal :=
  runAlu aluOpMplusm c f s

end Sys2Proof.Machine
end

