-- ==== Sys2Proof/Machine/Byte.lean ====
section
/-! DEFINITION. The four BYTE instructions, 43_byte. -/

namespace Sys2Proof.Machine

/-- A BYTE instruction from step 6 to step 11, 43_byte R363. -/
def runByte (rsrc rmask : Bool) (c : Common) (f : ByteFields) (s : State) :
    Host.Outcome State Fault Refusal :=
  finish <| (fetchOperands c s).bind fun (a, m, s7) =>
    (writeback f.dest (shift a m f.rot f.len rmask rsrc) s7).bind fun s9 => .go (endOfCycle c s9)

/-- R364. -/
def execByteLow (c : Common) (f : ByteFields) (s : State) : Host.Outcome State Fault Refusal :=
  runByte false false c f s

/-- R365. -/
def execByteSeldep (c : Common) (f : ByteFields) (s : State) : Host.Outcome State Fault Refusal :=
  runByte false true c f s

/-- R366. -/
def execByteLdb (c : Common) (f : ByteFields) (s : State) : Host.Outcome State Fault Refusal :=
  runByte true false c f s

/-- R367. -/
def execByteDpb (c : Common) (f : ByteFields) (s : State) : Host.Outcome State Fault Refusal :=
  runByte true true c f s

end Sys2Proof.Machine
end

