-- ==== Sys2Proof/Machine/DispatchTable.lean ====
section
/-! DEFINITION. The two DISPATCH instructions, 46_dispatch. -/

namespace Sys2Proof.Machine

/-- The GC-volatility relation, by the parameter `GCV_COMPARE` (R437): `g` the level-1 generation of MD,
`cached` the cached generation. -/
def gcVolatile (cmp : GcvCompare) (g : BitVec 2) (cached : BitVec 6) : Bool :=
  match cmp with
  | .generationGreater => decide (cached.extractLsb' 0 2 < g)
  | .table t => t.getLsbD (64 * g.toNat + cached.toNat)

/-- `gcVolatileBit` of R437. -/
def gcVolatileBit (s : State) : Bool :=
  gcVolatile s.cfg.gcvCompare ((lv1Entry s s.vm.md).extractLsb' 7 2) s.vm.cachedGeneration

/-- `oldspaceBit` of R438: `meta[5]` of the level-2 control entry of MD. -/
def oldspaceBit (s : State) : Bool := (lv2Control s s.vm.md).getLsbD 5

/-- The table index of R432, R437, R438: the base, the rotated and masked field of M and the enabled meta
bits, combined by OR. -/
def dispatchIndex (base : BitVec 12) (f : DispatchFields) (m : Word) (s : State) : BitVec 12 :=
  base ||| ((m.rotateLeft f.rot.toNat).setWidth 12 &&& BitVec.ofNat 12 (2 ^ f.dlen.toNat - 1))
    ||| (if f.oldEn && oldspaceBit s then 1 else 0) ||| (if f.gcvEn && gcVolatileBit s then 2 else 0)

/-- The current macro-instruction of R440: the even half when `LC[1] = 1`. -/
def currentMacro (s : State) : BitVec 16 :=
  if s.stream.lc.getLsbD 1 then s.stream.macroIR.extractLsb' 0 16 else s.stream.macroIR.extractLsb' 16 16

/-- The dispatch word of a macro dispatch, R440. -/
def macroDispatchWord (s : State) : Word := s.store.mid.read ((currentMacro s).extractLsb' 4 12).toNat

/-- Latch the dispatch constant, R431. -/
def latchConstant (k : BitVec 10) (s : State) : State :=
  { s with data := { s.data with dispatchConstant := k } }

/-- Act on a dispatch word (R434 to R436): the code, the start-read from the M bus, the transfer. -/
def applyDispatchWord (w m : Word) (lpc : Bool) (s : State) : Flow State :=
  match transferOf (w.extractLsb' 16 3) with
  | none => .die .illegalRpn s
  | some tr =>
    (if w.getLsbD 19 then startAccess m .read false .dataRead s else .go s).bind fun t =>
      transfer tr (w.extractLsb' 0 16) lpc t

/-- A DISPATCH from step 6 to step 11 (R430): `pick` gives the dispatch word and the state it leaves. -/
def runDispatch (pick : Word → State → Word × State) (c : Common) (f : DispatchFields) (s : State) :
    Host.Outcome State Fault Refusal :=
  finish <| (fetchOperands c s).bind fun (_, m, s7) =>
    let p := pick m (latchConstant f.dconst s7)
    (applyDispatchWord p.1 m f.lpc p.2).bind fun s8 => .go (endOfCycle c s8)

/-- R430, `MIR = 0`: the word is read from A-memory (R433). -/
def execDispatch (c : Common) (f : DispatchFields) (s : State) : Host.Outcome State Fault Refusal :=
  runDispatch (fun m t => (readA t (dispatchIndex c.aSrc f m t), t)) c f s

/-- R440, `MIR = 1`: the word is read from the macro-dispatch memory and the countdown stall is armed. -/
def execDispatchMir (c : Common) (f : DispatchFields) (s : State) : Host.Outcome State Fault Refusal :=
  runDispatch (fun _ t =>
    (macroDispatchWord t, { t with stalls := { t.stalls with macroDispatch := t.cfg.midStallCycles } })) c f s

end Sys2Proof.Machine
end

