-- ==== Sys2Proof/Machine/Jump.lean ====
section
/-! DEFINITION. The six JUMP instructions, 45_jump. -/

namespace Sys2Proof.Machine

/-- A JUMP instruction from step 6 to step 11, 45_jump R400. Its `{R,P,N}` is legal: a word with an illegal
one is no instruction (R417, log 12). -/
def runJump (tr : Transfer) (c : Common) (f : JumpFields) (s : State) : Host.Outcome State Fault Refusal :=
  finish <| (fetchOperands c s).bind fun (a, m, s7) =>
    match testHolds f.test a m s7 with
    | none => .die .illegalJumpCondition s7
    | some holds =>
      (if holds != f.inv then transfer tr f.addr f.lpc s7 else .go s7).bind fun s8 =>
        .go (endOfCycle c s8)

/-- R411. -/
def execJumpXctNext (c : Common) (f : JumpFields) (s : State) : Host.Outcome State Fault Refusal :=
  runJump .jumpXctNext c f s

/-- R412. -/
def execJump (c : Common) (f : JumpFields) (s : State) : Host.Outcome State Fault Refusal :=
  runJump .jump c f s

/-- R413. -/
def execCallXctNext (c : Common) (f : JumpFields) (s : State) : Host.Outcome State Fault Refusal :=
  runJump .callXctNext c f s

/-- R414. -/
def execCall (c : Common) (f : JumpFields) (s : State) : Host.Outcome State Fault Refusal :=
  runJump .call c f s

/-- R415. -/
def execRetXctNext (c : Common) (f : JumpFields) (s : State) : Host.Outcome State Fault Refusal :=
  runJump .retXctNext c f s

/-- R416. -/
def execRet (c : Common) (f : JumpFields) (s : State) : Host.Outcome State Fault Refusal :=
  runJump .ret c f s

end Sys2Proof.Machine
end

