-- ==== Sys2Proof/Machine/Dispatch.lean ====
section
/-! DEFINITION. The meaning of each instruction: steps 6 to 11 of the cycle that executes it (40_cycle R180),
in the state its fetch left. -/

namespace Sys2Proof.Machine

def exec (i : Instr) (s : State) : Host.Outcome State Fault Refusal :=
  match i with
  | .aluSetz c f => Sys2Proof.Machine.execAluSetz c f s
  | .aluAnd c f => Sys2Proof.Machine.execAluAnd c f s
  | .aluAndca c f => Sys2Proof.Machine.execAluAndca c f s
  | .aluSetm c f => Sys2Proof.Machine.execAluSetm c f s
  | .aluSeta c f => Sys2Proof.Machine.execAluSeta c f s
  | .aluXor c f => Sys2Proof.Machine.execAluXor c f s
  | .aluIor c f => Sys2Proof.Machine.execAluIor c f s
  | .aluSeto c f => Sys2Proof.Machine.execAluSeto c f s
  | .aluMstep c f => Sys2Proof.Machine.execAluMstep c f s
  | .aluDstep c f => Sys2Proof.Machine.execAluDstep c f s
  | .aluDfstep c f => Sys2Proof.Machine.execAluDfstep c f s
  | .aluRstep c f => Sys2Proof.Machine.execAluRstep c f s
  | .aluSub c f => Sys2Proof.Machine.execAluSub c f s
  | .aluAdd c f => Sys2Proof.Machine.execAluAdd c f s
  | .aluIncm c f => Sys2Proof.Machine.execAluIncm c f s
  | .aluMplusm c f => Sys2Proof.Machine.execAluMplusm c f s
  | .byteLow c f => Sys2Proof.Machine.execByteLow c f s
  | .byteSeldep c f => Sys2Proof.Machine.execByteSeldep c f s
  | .byteLdb c f => Sys2Proof.Machine.execByteLdb c f s
  | .byteDpb c f => Sys2Proof.Machine.execByteDpb c f s
  | .jumpXctNext c f => Sys2Proof.Machine.execJumpXctNext c f s
  | .jump c f => Sys2Proof.Machine.execJump c f s
  | .callXctNext c f => Sys2Proof.Machine.execCallXctNext c f s
  | .call c f => Sys2Proof.Machine.execCall c f s
  | .retXctNext c f => Sys2Proof.Machine.execRetXctNext c f s
  | .ret c f => Sys2Proof.Machine.execRet c f s
  | .dispatch c f => Sys2Proof.Machine.execDispatch c f s
  | .dispatchMir c f => Sys2Proof.Machine.execDispatchMir c f s

end Sys2Proof.Machine
end

