-- ==== Sys2Proof/Machine/Spy.lean ====
section
/-! DEFINITION. The SPY debug bus-slave responder, 47_spy R450 to R467. -/

namespace Sys2Proof.Machine

/-- The seventeen sub-registers of R452. -/
inductive SpyReg where
  | irLow | irHigh
  | cramAddr | cramDataLow | cramDataHigh | cramMap
  | tramAddr | tramData
  | historyAddr | historyData | historyPointer
  | multFT
  | dpMode | rgMode | configuration | processorMode
  | parityVector
deriving DecidableEq, Repr

/-- The sub-register at a byte offset that is a multiple of 4; the other offsets are undefined (R467). -/
def spyRegAt (offset : BitVec 8) : Option SpyReg :=
  match offset.toNat with
  | 0x00 => some .irLow
  | 0x04 => some .irHigh
  | 0x08 => some .cramAddr
  | 0x0C => some .cramDataLow
  | 0x10 => some .cramDataHigh
  | 0x14 => some .cramMap
  | 0x18 => some .tramAddr
  | 0x1C => some .tramData
  | 0x20 => some .historyAddr
  | 0x24 => some .historyData
  | 0x28 => some .historyPointer
  | 0x2C => some .multFT
  | 0x30 => some .dpMode
  | 0x34 => some .rgMode
  | 0x38 => some .configuration
  | 0x3C => some .processorMode
  | 0x40 => some .parityVector
  | _ => none

/-- The read value of a sub-register, narrower ones zero-extended (R452). -/
def spyValue (r : SpyReg) (s : State) : Word :=
  match r with
  | .irLow => s.pcs.ir.extractLsb' 0 32
  | .irHigh => (s.pcs.ir.extractLsb' 32 24).setWidth 32
  | .cramAddr => s.spyUnit.spyCramAddr.setWidth 32
  | .cramDataLow => (readCram s s.spyUnit.spyCramAddr).extractLsb' 0 32
  | .cramDataHigh => ((readCram s s.spyUnit.spyCramAddr).extractLsb' 32 24).setWidth 32
  | .cramMap => (s.store.cramMap.read (s.spyUnit.spyCramAddr.extractLsb' 4 12).toNat).setWidth 32
  | .tramAddr => s.spyUnit.spyTramAddr.setWidth 32
  | .tramData => s.spyUnit.tram.read s.spyUnit.spyTramAddr.toNat
  | .historyAddr => s.spyUnit.spyHistAddr.setWidth 32
  | .historyData => (s.spyUnit.history.read s.spyUnit.spyHistAddr.toNat).setWidth 32
  | .historyPointer => s.spyUnit.historyPtr.setWidth 32
  | .multFT => s.data.multFT
  | .dpMode => s.modes.dpMode
  | .rgMode => s.modes.rgMode
  | .configuration => s.modes.configReg
  | .processorMode => s.modes.procMode
  | .parityVector => 0

/-! ## The Processor-Mode register, R465 -/

/-- A 0 to 1 change of a bit. -/
def risingEdge (old new : Word) (bit : Nat) : Bool := !old.getLsbD bit && new.getLsbD bit

/-- A 1 to 0 change of a bit. -/
def fallingEdge (old new : Word) (bit : Nat) : Bool := old.getLsbD bit && !new.getLsbD bit

/-- Clear `halted` unless a die-request is set: a die-request is terminal (R465). -/
def restart (singleStep : Bool) (s : State) : State :=
  { s with run := { s.run with
      singleStepMode := singleStep
      halted := if s.run.dieRequest then s.run.halted else false } }

/-- First block of R465: a 0 to 1 change of `DEBUG_CLOCK` single-steps the engine. -/
def debugClockEdge (old new : Word) (s : State) : State :=
  if risingEdge old new 0 then restart true s else s

/-- Second block of R465: a 0 to 1 change of `RESET_INT_COUNTER` clears all pending interrupts. -/
def resetCounterEdge (old new : Word) (s : State) : State :=
  if risingEdge old new 1 then intResetCounter s else s

/-- Third block of R465: `forceHold` follows `FORCE_HOLD`. -/
def followForceHold (new : Word) (s : State) : State :=
  { s with stalls := { s.stalls with forceHold := new.getLsbD 2 } }

/-- Fourth block of R465: a 0 to 1 change of `RUN` starts free running, a 1 to 0 change halts. -/
def runEdge (old new : Word) (s : State) : State :=
  if risingEdge old new 3 then restart false s
  else if fallingEdge old new 3 then { s with run := { s.run with halted := true } }
  else s

/-- A write of `PROCESSOR_MODE`: the register, then the four blocks of R465 in order. -/
def writeProcMode (new : Word) (s : State) : State :=
  let old := s.modes.procMode
  runEdge old new (followForceHold new (resetCounterEdge old new (debugClockEdge old new
    { s with modes := { s.modes with procMode := new } })))

/-- The write action of a sub-register (R452). -/
def spyStore (r : SpyReg) (x : Word) (s : State) : State :=
  match r with
  | .irLow => { s with pcs := { s.pcs with ir := s.pcs.ir.extractLsb' 32 24 ++ x, irForced := true } }
  | .irHigh =>
    { s with pcs := { s.pcs with ir := x.extractLsb' 0 24 ++ s.pcs.ir.extractLsb' 0 32, irForced := true } }
  | .cramAddr => { s with spyUnit := { s.spyUnit with spyCramAddr := x.extractLsb' 0 16 } }
  | .cramDataLow => writeCramLow s.spyUnit.spyCramAddr x s
  | .cramDataHigh => writeCramHigh s.spyUnit.spyCramAddr (x.extractLsb' 0 24) s
  | .cramMap => writeCramMap s.spyUnit.spyCramAddr (x.extractLsb' 0 12) s
  | .tramAddr => { s with spyUnit := { s.spyUnit with spyTramAddr := x.extractLsb' 0 12 } }
  | .tramData =>
    { s with spyUnit := { s.spyUnit with tram := s.spyUnit.tram.write s.spyUnit.spyTramAddr.toNat x } }
  | .historyAddr => { s with spyUnit := { s.spyUnit with spyHistAddr := x.extractLsb' 0 12 } }
  | .historyData =>
    { s with spyUnit := { s.spyUnit with
        history := s.spyUnit.history.write s.spyUnit.spyHistAddr.toNat (x.extractLsb' 0 16) } }
  | .historyPointer => { s with spyUnit := { s.spyUnit with historyPtr := x.extractLsb' 0 12 } }
  | .multFT => { s with data := { s.data with multFT := x } }
  | .dpMode => { s with modes := { s.modes with dpMode := x } }
  | .rgMode => { s with modes := { s.modes with rgMode := x } }
  | .configuration => { s with modes := { s.modes with configReg := x } }
  | .processorMode => writeProcMode x s
  | .parityVector => s

/-- `value(reg)` of R451; an undefined offset reads 0 (R467). -/
def spyRead (r : Option SpyReg) (s : State) : Word :=
  match r with
  | some r => spyValue r s
  | none => 0

/-- `store(reg, x)` of R451; an undefined offset does nothing (R467). -/
def spyWrite (r : Option SpyReg) (x : Word) (s : State) : State :=
  match r with
  | some r => spyStore r x s
  | none => s

/-- The byte lane's bits (R451). -/
def laneMask (lane : BitVec 2) : Word := 0xFF#32 <<< (8 * lane.toNat)

/-! ## Serving a request -/

/-- The request is addressed to the SPY window (20_memory R120). -/
def spySelected (s : State) : Bool := windowHit s (spyBase s.client.busID) spySize

/-- The byte offset of the request in the window (R451). -/
def spyOffset (s : State) : BitVec 8 :=
  (s.bus.address - BitVec.ofNat 32 (spyBase s.client.busID)).extractLsb' 0 8

/-- Acknowledge the request (R450, R122: `error` is never set). -/
def acknowledge (s : State) : State := { s with bus := { s.bus with ack := true } }

/-- Acknowledge a read with its data (R451). -/
def acknowledgeRead (v : Word) (s : State) : State := { s with bus := { s.bus with ack := true, data := v } }

/-- Serve the request in the bus cells (R450, R451). -/
def spyRespond (s : State) : State :=
  let r := spyRegAt (spyOffset s &&& 0xFC)
  let lanes := laneMask ((spyOffset s).extractLsb' 0 2)
  match s.bus.kind with
  | .readWord => acknowledgeRead (spyRead r s) s
  | .readByte => acknowledgeRead (spyRead r s &&& lanes) s
  | .writeWord => acknowledge (spyWrite r s.bus.data s)
  | .writeByte => acknowledge (spyWrite r ((spyRead r s &&& ~~~lanes) ||| (s.bus.data &&& lanes)) s)

end Sys2Proof.Machine
end

