-- ==== Sys2Proof/Machine/Cycle.lean ====
section
/-! DEFINITION. One call of `clockPulse` (40_cycle R180), and what the platform does before it (20_memory R110,
R123; 70_reset R530; log 7, log 8). -/

namespace Sys2Proof.Machine

/-! ## The platform, between two cycles -/

/-- One platform event (log 7, log 9, log 10). -/
def applyEvent (e : PlatformEvent) (s : State) : State :=
  match e with
  | .reset busID => initEngine busID s
  | .grant =>
    match s.requests with
    | [] => s
    | r :: rest =>
      { s with
        requests := rest
        bus := { busy := true, ack := false, error := false, master := r.master, kind := r.kind,
                 address := r.address, data := r.data } }
  | .cells b => { s with bus := b }

/-- The events of one tick, in order. -/
def applyEvents (es : List PlatformEvent) (s : State) : State := es.foldl (fun t e => applyEvent e t) s

/-- Take the next tick's events from the inputs; with none left the platform does nothing. -/
def platformTick (s : State) : State :=
  match s.inputs with
  | [] => s
  | es :: rest => applyEvents es { s with inputs := rest }

/-! ## Step 4, stalls (R185 to R190) -/

/-- PJAN at priority 2: it ticks or fires and does not end the cycle (R188, 44 R386, R387). -/
def tickPjan (s : State) : Flow State :=
  match s.pcs.popjCountdown with
  | none => .go s
  | some 0 => deferredReturn s
  | some n => .go { s with pcs := { s.pcs with popjCountdown := some (n - 1) } }

/-- Consume the highest-priority pending stall of priorities 3 to 7, if any (R186, R189). -/
def consumeStall (s : State) : Option State :=
  if s.stalls.slowDest then some { s with stalls := { s.stalls with slowDest := false } }
  else if s.stalls.longInst then some { s with stalls := { s.stalls with longInst := false } }
  else if s.stalls.nopNext then some { s with stalls := { s.stalls with nopNext := false } }
  else if s.stalls.csWrite then some { s with stalls := { s.stalls with csWrite := false } }
  else if s.stalls.macroDispatch ≠ 0 then
    some { s with stalls := { s.stalls with macroDispatch := s.stalls.macroDispatch - 1 } }
  else none

/-! ## Step 5 (R192 to R197) -/

/-- Advance the program counters, R192. -/
def advance (s : State) : State :=
  { s with pcs := { s.pcs with
      currentPC := s.pcs.nextPC
      nextPC := s.pcs.afterNextPC.getD (s.pcs.nextPC + 1)
      afterNextPC := none } }

/-- Push the history, R196. -/
def pushHistory (s : State) : State :=
  { s with spyUnit := { s.spyUnit with
      history := s.spyUnit.history.write s.spyUnit.historyPtr.toNat s.pcs.currentPC
      historyPtr := s.spyUnit.historyPtr + 1 } }

/-- Fetch through the page map, unless the instruction register was forced (R193, R194). -/
def fetch (s : State) : State :=
  { s with pcs := { s.pcs with
      ir := if s.pcs.irForced then s.pcs.ir else readCram s s.pcs.currentPC
      irForced := false } }

/-- Merge a pending instruction-modify overlay, once (R195). -/
def mergeOverlay (s : State) : State :=
  if s.overlay.pending then
    { s with
      pcs := { s.pcs with ir := s.pcs.ir ||| (s.overlay.high ++ s.overlay.low) }
      overlay := { low := 0, high := 0, pending := false } }
  else s

/-- Does a statistics counter with this trigger count an instruction with this `MF` bit (R197). -/
def triggerCounts (trigger : BitVec 2) (mf : Bool) : Bool := (trigger == 0) || ((trigger == 1) && mf)

/-- A counter after this instruction is counted or not. -/
def countIf (count : Bool) (v : Word) : Word := if count then v + 1 else v

/-- Update the statistics counters, R197. -/
def countStatistics (s : State) : State :=
  { s with modes := { s.modes with
      statCounter := countIf (triggerCounts (statTrigger s) (s.pcs.ir.getLsbD 53)) s.modes.statCounter
      auxStatCounter := countIf (triggerCounts (auxStatTrigger s) (s.pcs.ir.getLsbD 53)) s.modes.auxStatCounter } }

/-- The whole of step 5. -/
def fetchNext (s : State) : State := countStatistics (mergeOverlay (fetch (pushHistory (advance s))))

/-! ## Steps 6 to 11 -/

/-- The cause a rejected word dies of. -/
def rejectCause : Reject → DieCause
  | .illegalAluOpcode _ => .illegalAluOpcode
  | .illegalRpn _ => .illegalRpn

/-- A word that is no instruction of the table dies at step 8, after its macro-stream step and its operand
fetch (42_alu R328, R329; 45_jump R417; log 12). -/
def execRejected (r : Reject) (c : Common) (s : State) : Host.Outcome State Fault Refusal :=
  finish <| (fetchOperands c s).bind fun p => .die (rejectCause r) p.2.2

/-- Decode the merged instruction register and execute it. -/
def execWord (s : State) : Host.Outcome State Fault Refusal :=
  match decode s.pcs.ir with
  | .ok i => exec i s
  | .error r => execRejected r (decodeCommon s.pcs.ir) s

/-! ## The eleven steps, R180 -/

/-- Steps 1 and 2 but for SPY: the bus service and the interrupt-status window (R183). -/
def serveBus (s : State) : State := interruptWindow (serviceBus s)

/-- Steps 4 to 11, for an engine that is neither halted nor held. -/
def runCycle (s : State) : Host.Outcome State Fault Refusal :=
  match tickPjan s with
  | .die _ t => .next (raiseDie t)
  | .go t =>
    match consumeStall t with
    | some u => .next u
    | none => execWord (fetchNext t)

/-- One `clockPulse` (R180): bus service, slave windows, halt, forced hold, then steps 4 to 11. -/
def clockPulse (s : State) : Host.Outcome State Fault Refusal :=
  let t := serveBus s
  if spySelected t then .next (spyRespond t)
  else if t.run.halted then .next t
  else if t.stalls.forceHold then .next t
  else runCycle t

/-! ## Placing one instruction where the next step fetches -/

/-- The engine ready to execute on its next cycle, nothing else changed: running, not held, no stall and no
forced or overlaid instruction, no deferred return due, no SPY request to serve and no platform event
in the coming tick (log 16). -/
def readyToFetch (s : State) : State :=
  { s with
    run := { s.run with halted := false }
    stalls := { forceHold := false, slowDest := false, longInst := false, nopNext := false, csWrite := false,
                macroDispatch := 0 }
    pcs := { s.pcs with
      irForced := false
      popjCountdown := if s.pcs.popjCountdown = some 0 then none else s.pcs.popjCountdown }
    overlay := { s.overlay with pending := false }
    bus := { s.bus with busy := s.bus.busy && !spySelected s }
    inputs := if s.inputs = [] then [] else [] :: s.inputs }

/-- Store a word in the slot the next fetch reads. -/
def placeWord (w : Slot) (s : State) : State :=
  { s with store := { s.store with cram := s.store.cram.write (slotOf s s.pcs.nextPC).toNat w } }

end Sys2Proof.Machine
end

