-- ==== Sys2Proof/Machine/Step.lean ====
section
/-! DEFINITION. The step of the machine: what the platform does in one tick, then one `clockPulse`
(00_scope R12). -/

namespace Sys2Proof.Machine

/-- One tick. -/
def step (s : State) : Host.Outcome State Fault Refusal := clockPulse (platformTick s)

/-- The state with an instruction, given by its bits, stored where the next step fetches, the engine ready
to execute it (log 16). -/
def State.withFetchWord (s : State) (nbits w : Nat) : State :=
  placeWord (BitVec.ofNat 56 (w % 2 ^ nbits)) (readyToFetch s)

end Sys2Proof.Machine
end

