-- ==== Sys2Proof/Safety.lean ====
section
/-! DEFINITION. The terms statements use: what it takes for a part of a cycle not to die, the states between
the steps of a cycle, what the rules say of a condition, a transfer and a stored value in plain terms, and
the invariant of a state. -/

namespace Sys2Proof

/-! ## What an instruction asks for -/

/-- Does the instruction ask for the macro-stream step (40_cycle R198). -/
def Common.streams (c : Common) : Bool := c.mf || c.msa

/-- The kind of access and the force bit of a start destination (41 R275 to R278). -/
def FuncDest.start : FuncDest → Option (Machine.AccessKind × Bool)
  | .vmaStartRead => some (.read, false)
  | .vmaStartWrite => some (.write, false)
  | .vmaStartReadForce => some (.read, true)
  | .vmaStartWriteForce => some (.write, true)
  | _ => Option.none

/-- Does a destination ask for a memory operation. -/
def Dest.starts : Dest → Bool
  | .a _ => false
  | .func f _ => f.start.isSome

/-- The functional code of an instruction's destination, if it has one. -/
def Instr.func (i : Instr) : Option FuncDest :=
  match i.dest with
  | some (.func f _) => some f
  | _ => none

/-- The instruction is a DISPATCH. -/
def Instr.isDispatch : Instr → Bool
  | .dispatch _ _ | .dispatchMir _ _ => true
  | _ => false

/-- The instruction can transfer control: a JUMP or a DISPATCH. -/
def Instr.transfers (i : Instr) : Bool := i.dest.isNone

/-- An instruction may ask for a memory operation (20_memory R101): the macro-stream step, a start
destination, or a DISPATCH. -/
def Instr.mayStart (i : Instr) : Bool :=
  i.common.streams || (match i.dest with | some d => d.starts | none => false) || i.isDispatch

end Sys2Proof

namespace Sys2Proof.Machine

/-! ## Dying -/

/-- The two bits `Die` sets (60_exceptions R490). -/
abbrev Dead (s : State) : Prop := s.run.dieRequest = true ∧ s.run.halted = true

/-! ## Operand fetch, steps 6 and 7 -/

/-- A memory operation is not refused by the one-transaction rule (20_memory R113): its translation faults,
so nothing is issued, or the engine has no transaction outstanding. -/
abbrev CanStart (vma : Word) (kind : AccessKind) (force : Bool) (s : State) : Prop :=
  translationFaults s vma kind force = true ∨ s.client.busPending = .idle

/-- The virtual word address the macro-stream step reads (R198). -/
def streamAddress (s : State) : Word := (s.stream.lc.extractLsb' 2 25).setWidth 32

/-- The macro-stream step of an instruction, if it has one, can start its read. -/
abbrev StreamReady (c : Common) (s : State) : Prop :=
  c.streams = true → CanStart (streamAddress s) .read false s

/-- The M source can be read: it is documented, and a `MICRO_STACK_POP` with PJAN armed finds the after-next
slot empty (44_microstack_pjan R391). -/
abbrev SourceReady (src : MSource) (s : State) : Prop :=
  src.legal = true
    ∧ (src = .microStackPop → s.pcs.popjCountdown = none ∨ s.pcs.afterNextPC = none)

/-- Steps 6 and 7 of an instruction do not die. -/
abbrev FetchReady (c : Common) (s : State) : Prop := StreamReady c s ∧ SourceReady c.mSrc s

/-- The state after step 6. -/
def afterStream (c : Common) (s : State) : State :=
  match streamStep (c.streams) s with
  | .go t => t
  | .die _ t => t

/-- The state after step 7: what an M source that pops has done. -/
def afterFetch (c : Common) (s : State) : State :=
  match mOperand c.mSrc (afterStream c s) with
  | .go p => p.2
  | .die _ t => t

/-- The A operand (R199). -/
def aValue (c : Common) (s : State) : Word := readA s c.aSrc

/-- The M operand (R200), read after the macro-stream step. -/
def mValue (c : Common) (s : State) : Word := sourceValue c.mSrc (afterStream c s)

/-! ## Destinations, step 9 -/

/-- The destination can be written with `o`: it is documented, and a start destination can start. -/
abbrev DestReady (d : Dest) (o : Word) (s : State) : Prop :=
  match d with
  | .a _ => True
  | .func f _ =>
    f.legal = true ∧
      match f.start with
      | some (kind, force) => CanStart o kind force s
      | none => True

/-- The memory word a destination names holds `o` (41 R262, R263): the A-memory word, or the M-memory word
and, by `M_WRITE_MIRRORS_A`, the A-memory word of the same address. -/
def Stored (d : Dest) (o : Word) (t : State) : Prop :=
  match d with
  | .a addr => readA t addr = o
  | .func _ m => readM t (m.setWidth 12) = o ∧ (t.cfg.mWriteMirrorsA = true → readA t (m.setWidth 12) = o)

/-- The M-memory word a PDL destination stores to, in the state step 9 finds (41 R271 to R273). -/
def pdlStore (f : FuncDest) (s : State) : Option (BitVec 12) :=
  match f with
  | .cPdlPointer => some s.data.pdlPointer
  | .cPdlPointerPush => some (s.data.pdlPointer + 1)
  | .cPdlIndex => some s.data.pdlIndex
  | _ => none

/-- An instruction stores to this A-memory word (R262, R263). -/
def StoresA (i : Instr) (s : State) (addr : BitVec 12) : Prop :=
  match i.dest with
  | some (.a a) => addr = a
  | some (.func _ m) => s.cfg.mWriteMirrorsA = true ∧ addr = m.setWidth 12
  | none => False

/-- An instruction stores to this M-memory word (R263, R271 to R273); `s` is the state it executes in. -/
def StoresM (i : Instr) (s : State) (addr : BitVec 12) : Prop :=
  match i.dest with
  | some (.func f m) => addr = m.setWidth 12 ∨ pdlStore f (afterFetch i.common s) = some addr
  | _ => False

/-! ## Conditions and transfers, in plain terms -/

/-- What a JUMP tests, before `INV` (45_jump R401 to R408, R410). -/
def TestTrue (t : JumpTest) (a m : Word) (s : State) : Prop :=
  match t with
  | .cond .typeMismatch => m.toNat / 2 ^ 25 ≠ a.toNat / 2 ^ 25
  | .cond .lt => m.toInt < a.toInt
  | .cond .le => m.toInt ≤ a.toInt
  | .cond .ne => m ≠ a
  | .cond .noPf => s.vm.pageFault = false
  | .cond .pfInt => s.vm.pageFault = true ∨ s.intr.pending.toNat ≠ 0
  | .cond .pfIntSb => s.vm.pageFault = true ∨ s.intr.pending.toNat ≠ 0 ∨ s.modes.rgMode.getLsbD 1 = true
  | .cond .always => True
  | .cond (.undefined _) => False
  | .bit rot => m.getLsbD ((32 - rot.toNat) % 32) = true

/-- A JUMP with this test and `INV` bit is taken. -/
def Taken (f : JumpFields) (a m : Word) (s : State) : Prop := TestTrue f.test a m s ↔ f.inv = false

/-- The state a CALL's stack leaves (R413, R414; 44_microstack_pjan R380, R390): from `s` to `t`, with `addr`
the return address. -/
def Pushed (addr : MicroAddr) (s t : State) : Prop :=
  if s.pcs.popjCountdown.isSome ∧ s.cfg.pjanCallFold = .tailCall then t.ustack = s.ustack
  else
    t.ustack.ptr =
        (if s.pcs.popjCountdown.isSome ∧ s.cfg.pjanCallFold = .popThenPush then s.ustack.ptr else s.ustack.ptr + 1)
      ∧ ∀ i : BitVec 8, t.ustack.ring.read i.toNat =
          if i = t.ustack.ptr then addr else s.ustack.ring.read i.toNat

/-- The return address of a CALL (R413, R414). -/
def returnAddress (xctNext lpc : Bool) (s : State) : MicroAddr :=
  if lpc then s.pcs.currentPC
  else if xctNext then BitVec.ofNat 16 ((s.pcs.nextPC.toNat + 1) % 65536)
  else s.pcs.nextPC

/-- A plain transfer to `target` (R412): the next address, and the NOP-next stall. -/
def WentTo (target : MicroAddr) (s t : State) : Prop :=
  t.pcs.nextPC = target ∧ t.stalls.nopNext = true ∧ t.pcs.afterNextPC = s.pcs.afterNextPC

/-- An execute-next transfer to `target` (R411): the after-next slot alone. -/
def WentAfterNext (target : MicroAddr) (s t : State) : Prop :=
  t.pcs.nextPC = s.pcs.nextPC ∧ t.stalls.nopNext = s.stalls.nopNext ∧ t.pcs.afterNextPC = some target

/-- What the six transfers do to the program counters and the micro-return-stack (R411 to R416), from the
state `s` the transfer acts on to the state `t` the instruction leaves. -/
def Transferred (tr : Transfer) (target : MicroAddr) (lpc : Bool) (s t : State) : Prop :=
  match tr with
  | .jumpXctNext => WentAfterNext target s t ∧ t.ustack = s.ustack
  | .jump => WentTo target s t ∧ t.ustack = s.ustack
  | .callXctNext => WentAfterNext target s t ∧ Pushed (returnAddress true lpc s) s t
  | .call => WentTo target s t ∧ Pushed (returnAddress false lpc s) s t
  | .retXctNext =>
    WentAfterNext (s.ustack.ring.read s.ustack.ptr.toNat) s t
      ∧ t.ustack.ring = s.ustack.ring ∧ t.ustack.ptr = s.ustack.ptr - 1
  | .ret =>
    WentTo (s.ustack.ring.read s.ustack.ptr.toNat) s t
      ∧ t.ustack.ring = s.ustack.ring ∧ t.ustack.ptr = s.ustack.ptr - 1

/-- The transfer is a CALL, which ends an armed PJAN (44_microstack_pjan R390). -/
def Transfer.calls : Transfer → Bool
  | .callXctNext | .call => true
  | _ => false

/-- The transfer is an execute-next one. -/
def Transfer.xctNext : Transfer → Bool
  | .jumpXctNext | .callXctNext | .retXctNext => true
  | _ => false

/-- PJAN after an instruction (R385, R390): armed by its `PJAN` bit, else ended by a CALL, else as it was. -/
def pjanAfter (c : Common) (called : Bool) (s : State) : Option (Fin 3) :=
  if c.pjan then some (if c.slowDest then 2 else 1)
  else if called then none
  else s.pcs.popjCountdown

/-! ## Memory operations, in plain terms -/

/-- The level-2 control and address entries of a virtual address (20_memory R91, R92), by numbers. -/
def level2Index (s : State) (v : Word) : Nat :=
  (s.vm.lv1.read (v.toNat / 2 ^ 13 % 4096)).toNat % 128 * 32 + v.toNat / 256 % 32

/-- Whether a translation faults, case by case (R94, R96, R97). -/
def FaultRule (s : State) (v : Word) (kind : AccessKind) (force : Bool) : Prop :=
  let control := s.vm.lv2c.read (level2Index s v)
  let access := control.toNat / 512 % 4
  let override := force = true ∧ control.toNat / 2048 % 2 = 1
  access = 0 ∨ (access = 1 ∧ kind = .read ∧ ¬ override) ∨ (access = 2 ∧ kind = .write ∧ ¬ override)
    ∨ (s.cfg.lv1ValidGatesFault = true ∧ (s.vm.lv1.read (v.toNat / 2 ^ 13 % 4096)).toNat / 512 = 0)

/-- The request a memory operation hands to the arbiter (R111, R113, R114): `page` is the level-2 address
entry. -/
def requestFor (s : State) (v : Word) (kind : AccessKind) (page : BitVec 24) : BusRequest where
  kind := match kind, decide (page.toNat / 2 ^ 22 = 0) with
    | .read, true => .readWord
    | .read, false => .readByte
    | .write, true => .writeWord
    | .write, false => .writeByte
  master := s.client.busID.val
  address := BitVec.ofNat 32 ((page.toNat % 2 ^ 22 * 256 + v.toNat % 256) * 4 + page.toNat / 2 ^ 22)
  data := match kind with
    | .read => 0
    | .write => s.vm.md

/-- What a memory operation does (R94, R113, R114), from `s` to `t`: the VMA, the translator's latches, and
unless it faults one request and the outstanding transaction. -/
def Started (v : Word) (kind : AccessKind) (force : Bool) (pend : BusPending) (s t : State) : Prop :=
  let page := s.vm.lv2a.read (level2Index s v)
  t.vm.vma = v
    ∧ t.vm.cachedGeneration.toNat = (s.vm.lv2c.read (level2Index s v)).toNat % 64
    ∧ (FaultRule s v kind force →
        t.vm.pageFault = true ∧ t.vm.physAddr = s.vm.physAddr ∧ t.vm.byteMode = s.vm.byteMode
          ∧ t.vm.byteSel = s.vm.byteSel ∧ t.requests = s.requests ∧ t.client.busPending = s.client.busPending)
    ∧ (¬ FaultRule s v kind force →
        t.vm.pageFault = false ∧ t.vm.physAddr.toNat = page.toNat % 2 ^ 22 * 256 + v.toNat % 256
          ∧ t.vm.byteSel.toNat = page.toNat / 2 ^ 22 ∧ (t.vm.byteMode = true ↔ page.toNat / 2 ^ 22 ≠ 0)
          ∧ t.requests = s.requests ++ [requestFor s v kind page] ∧ t.client.busPending = pend)

/-! ## The words a DISPATCH acts on -/

/-- The GC-volatility bit as the default relation of R437 has it; another relation is `GCV_COMPARE`'s. -/
def gcvNumber (s : State) : Nat := if gcVolatileBit s then 1 else 0

/-- The oldspace bit of R438: bit 5 of the level-2 control entry of MD. -/
def oldspaceNumber (s : State) : Nat := (s.vm.lv2c.read (level2Index s s.vm.md)).toNat / 32 % 2

/-- The table index of R432, R437, R438, by numbers; `s` is the state step 8 finds. -/
def tableIndex (c : Common) (f : DispatchFields) (m : Word) (s : State) : Nat :=
  c.aSrc.toNat ||| (m.rotateLeft f.rot.toNat).toNat % 2 ^ f.dlen.toNat
    ||| (if f.oldEn then oldspaceNumber s else 0) ||| (if f.gcvEn then 2 * gcvNumber s else 0)

/-- The dispatch word of a macro dispatch (R440), by numbers. -/
def macroWord (s : State) : Word :=
  s.store.mid.read
    ((if s.stream.lc.toNat / 2 % 2 = 1 then s.stream.macroIR.toNat % 65536 else s.stream.macroIR.toNat / 65536) / 16)

/-- The three-bit code of a transfer (30_encoding R155). -/
def Transfer.code : Transfer → Nat
  | .jumpXctNext => 0
  | .jump => 1
  | .callXctNext => 2
  | .call => 3
  | .retXctNext => 4
  | .ret => 5

/-! ## An ALU instruction after its operands are fetched -/

/-- Steps 8 to 11 of an ALU instruction (42_alu R310) whose 32-bit result before the mask flag is `r`, with
this carry-out: whenever the destination can be written with the selected output, the instruction answers
the state after writeback, Q update and end of cycle, and the output is stored. -/
def AluDone (i : Instr) (c : Common) (f : AluFields) (s : State) (r : Word) (carry : Bool) : Prop :=
  let r32 := if f.mask then BitVec.ofNat 32 ((aValue c s).toNat / 2 ^ 25 * 2 ^ 25 + r.toNat % 2 ^ 25) else r
  ∀ o, outputSelector f.out r32 carry (aValue c s) s.data.q = some o → DestReady f.dest o (afterFetch c s) →
    ∃ s9, writeback f.dest o (afterFetch c s) = .go s9 ∧ Stored f.dest o s9
      ∧ exec i s = .next (endOfCycle c { s9 with data := { s9.data with q := updateQ f.qctl s.data.q r32 } })

/-! ## The entry of the micro-return-stack a CALL stores -/

/-- The entry a CALL's return address goes to, if any (44_microstack_pjan R380, R390): the one above the top;
with PJAN armed, none or the top one by `PJAN_CALL_FOLD`. -/
def callSlot (s : State) : Option (BitVec 8) :=
  match s.pcs.popjCountdown.isSome, s.cfg.pjanCallFold with
  | true, .tailCall => none
  | true, .popThenPush => some s.ustack.ptr
  | _, _ => some (s.ustack.ptr + 1)

/-- An instruction transfers by a CALL: a CALL whose condition holds (45_jump R413, R414), or a DISPATCH whose
dispatch word has one of the two CALL codes (46_dispatch R434). -/
def Calls (i : Instr) (s : State) : Prop :=
  match i with
  | .callXctNext c f | .call c f => Taken f (aValue c s) (mValue c s) (afterFetch c s)
  | .dispatch c f =>
    (s.files.amem.read (tableIndex c f (mValue c s) (afterFetch c s))).toNat / 2 ^ 16 % 8 ∈ [2, 3]
  | .dispatchMir c _ => (macroWord (afterFetch c s)).toNat / 2 ^ 16 % 8 ∈ [2, 3]
  | _ => False

/-- An instruction stores to this entry of the micro-return-stack. -/
def StoresStack (i : Instr) (s : State) (n : BitVec 8) : Prop :=
  Calls i s ∧ callSlot (afterFetch i.common s) = some n

/-! ## Counting and the invariant -/

/-- The number of set `intStatus` bits (10_state R39). -/
def pendingCount (status : Cells 1) : Nat :=
  ((List.range intVectors).filter (fun i => status.read i == 1#1)).length

/-- Every memory is in canonical form, its addresses inside its size (00_scope R6, R8). -/
def State.memoriesWf (s : State) : Bool :=
  s.files.amem.wf tableWords && s.files.mmem.wf tableWords
    && s.store.cram.wf cramWords && s.store.cramMap.wf tableWords && s.store.mid.wf tableWords
    && s.vm.lv1.wf tableWords && s.vm.lv2c.wf tableWords && s.vm.lv2a.wf tableWords
    && s.intr.status.wf intVectors && s.ustack.ring.wf ustackEntries
    && s.spyUnit.history.wf tableWords && s.spyUnit.tram.wf tableWords

/-- What every step keeps: canonical memories; `intPending` the number of set `intStatus` bits (R39); a
die-request with the engine halted (R490); `forceHold` as `procMode.FORCE_HOLD` (R48); no overlay bits
without a pending overlay (R52); byte mode exactly when a byte lane is selected (R100). -/
abbrev State.Inv (s : State) : Prop :=
  s.memoriesWf = true
    ∧ s.intr.pending.toNat = pendingCount s.intr.status
    ∧ (s.run.dieRequest = true → s.run.halted = true)
    ∧ s.stalls.forceHold = s.modes.procMode.getLsbD 2
    ∧ (s.overlay.pending = false → s.overlay.low = 0 ∧ s.overlay.high = 0)
    ∧ s.vm.byteMode = (s.vm.byteSel != 0)

/-! ## A cycle -/

/-- The engine after steps 1 and 2 but for SPY (R180): the platform's events of this tick applied, the bus
serviced and the interrupt window answered. -/
def atStep3 (s : State) : State := serveBus (platformTick s)

/-- No SPY request is served in this cycle, the engine runs and is not held (R180 steps 2 to 4). -/
abbrev Running (s : State) : Prop :=
  spySelected (atStep3 s) = false ∧ (atStep3 s).run.halted = false
    ∧ (atStep3 s).stalls.forceHold = false

/-- No stall of priorities 3 to 7 is pending (R186). -/
abbrev NoStall (s : State) : Prop :=
  s.stalls.slowDest = false ∧ s.stalls.longInst = false ∧ s.stalls.nopNext = false
    ∧ s.stalls.csWrite = false ∧ s.stalls.macroDispatch = 0

/-- The platform does not call `initialize` in the coming tick. -/
abbrev NoInitialize (s : State) : Prop :=
  ∀ es rest, s.inputs = es :: rest → ∀ id, PlatformEvent.reset id ∉ es

/-! ## Illegal encodings (30_encoding R157), by the bits of the word -/

/-- A field of a word as a number: `n` bits from bit `lo`. -/
def field (w : Slot) (lo n : Nat) : Nat := w.toNat / 2 ^ lo % 2 ^ n

/-- The word is one of R157's illegal instructions; the seventh entry of that list, a dispatch word, is no
instruction. -/
def IllegalWord (w : Slot) : Prop :=
  (0x56 ≤ field w 29 7)
    ∨ (field w 48 2 = 0 ∧ field w 7 5 ∉ [0x00, 0x01, 0x02, 0x03, 0x05, 0x06, 0x07, 0x0F, 0x10, 0x11, 0x12, 0x15, 0x16, 0x19, 0x1C, 0x1F])
    ∨ (field w 48 2 = 0 ∧ field w 13 3 = 7)
    ∨ ((field w 48 2 = 0 ∨ field w 48 2 = 3) ∧ field w 28 1 = 0 ∧ 0x1B ≤ field w 22 6)
    ∨ (field w 48 2 = 1 ∧ field w 8 1 = 1 ∧ 8 ≤ field w 0 5)
    ∨ (field w 48 2 = 1 ∧ 6 ≤ field w 10 3)

end Sys2Proof.Machine
end

