-- ==== Sys2Proof/Certificates/Slice0/Obligations.lean ====
section
/-! DEFINITION. The statements for the provers. Each docstring names the rules of spec/ it formalises; a clause
that rests on a choice of the model names the log entry. -/

section

open Sys2Proof Sys2Proof.Machine

/-! ## Encoding -/

/-- Decoding an encoded well-formed instruction gives it back, with every operand at every value its field
admits (30_encoding R141 to R149, R152 to R154, R163). -/
def Obligations.DecodeOfEncodeIsIdentity : Prop :=
  ∀ i : Instr, i.wellFormed = true → decode (encode i) = .ok i

/-- An instruction the decoder reads is well-formed, and encoding it gives back the word but for its spare
bits (R158). -/
def Obligations.EncodeOfDecodeKeepsUsedBits : Prop :=
  ∀ (w : Slot) (i : Instr), decode w = .ok i → i.wellFormed = true ∧ encode i = w &&& usedBits w

/-- Spare bits of an instruction and bits 31:20 of a dispatch word are ignored, and so are fields an
instruction does not use: `ADDR` and `LPC` of a RETURN, `CARRY` where no carry enters (R158; 42_alu R331,
45_jump R415, R416). -/
def Obligations.SpareBitsAndUnusedFieldsAreIgnored : Prop :=
  (∀ w v : Slot, v &&& usedBits w = w &&& usedBits w → decode v = decode w)
    ∧ (∀ (w v m : Word) (lpc : Bool) (s : State), v.extractLsb' 0 20 = w.extractLsb' 0 20 →
        applyDispatchWord v m lpc s = applyDispatchWord w m lpc s)
    ∧ (∀ (c : Common) (f : JumpFields) (a : MicroAddr) (l : Bool) (s : State),
        exec (.ret c { f with addr := a, lpc := l }) s = exec (.ret c f) s
          ∧ exec (.retXctNext c { f with addr := a, lpc := l }) s = exec (.retXctNext c f) s)
    ∧ (∀ (c : Common) (f : AluFields) (b : Bool) (s : State) (k : Common → AluFields → Instr),
        k ∈ [.aluSetz, .aluAnd, .aluAndca, .aluSetm, .aluSeta, .aluXor, .aluIor, .aluSeto, .aluMstep, .aluDstep,
          .aluDfstep, .aluRstep] →
        exec (k c { f with carry := b }) s = exec (k c f) s)

/-- Words written out in the spec decode to the instructions it says they are. -/
def Obligations.SpecWordsDecode : Prop :=
  let c : Common := { halt := false, pjan := false, mf := false, msa := false, slowDest := false, ilong := false,
                      aSrc := 0, mSrc := .m 0 }
  decode 0x00004020020C80 = .ok (.aluAdd { c with aSrc := 4, mSrc := .m 1 }
      { dest := .func .none 2, out := .pass, mask := false, carry := false, qctl := .keep })
    ∧ decode 0x03001040031908 = .ok (.byteDpb { c with aSrc := 1, mSrc := .m 2 }
      { dest := .func .none 3, len := 8, rot := 8 })
    ∧ decode 0x01000000001507 = .ok (.ret c { addr := 0, inv := false, test := .cond .always, lpc := false })
    ∧ decode 0x0210004028031C = .ok (.dispatch { c with aSrc := 0x100, mSrc := .m 2 }
      { dconst := 5, gcvEn := false, oldEn := false, dlen := 3, lpc := false, rot := 28 })

/-- The decoder refuses exactly the ALU words with an undefined `ALUOP` and the JUMP words with `RPN` 6 or 7
(30_encoding R151, R155, R157). -/
def Obligations.DecodeRejectsExactlyUndefinedCodes : Prop :=
  ∀ w : Slot, (∃ r, decode w = .error r) ↔
    (field w 48 2 = 0 ∧ field w 7 5 ∉ [0x00, 0x01, 0x02, 0x03, 0x05, 0x06, 0x07, 0x0F, 0x10, 0x11, 0x12, 0x15, 0x16, 0x19, 0x1C, 0x1F])
      ∨ (field w 48 2 = 1 ∧ 6 ≤ field w 10 3)

/-- Every illegal encoding raises `Die` when it executes: each kind of illegal instruction word, whatever the
state, and an illegal code in the dispatch word a DISPATCH reads (30_encoding R157). -/
def Obligations.IllegalEncodingsDie : Prop :=
  (∀ s : State, IllegalWord s.pcs.ir → ∃ t, execWord s = .next t ∧ Dead t)
    ∧ (∀ (c : Common) (f : DispatchFields) (s : State),
        6 ≤ (s.files.amem.read (tableIndex c f (mValue c s) (afterFetch c s))).toNat / 2 ^ 16 % 8 →
        ∃ t, exec (.dispatch c f) s = .next t ∧ Dead t)
    ∧ (∀ (c : Common) (f : DispatchFields) (s : State),
        6 ≤ (macroWord (afterFetch c s)).toNat / 2 ^ 16 % 8 →
        ∃ t, exec (.dispatchMir c f) s = .next t ∧ Dead t)

/-! ## The cycle -/

/-- When the engine runs, is not held, has no stall left to consume and no SPY request to serve, a step
executes the fetched word in the state its fetch leaves: the decoded instruction; or, where the decoder
rejects the word, the `Die` of 30_encoding R157, 42_alu R328 and 45_jump R417, with no writeback and no Q
update, after the macro-stream step and the operand fetch (log 12). -/
def Obligations.StepRunsDecodedInstruction : Prop :=
  ∀ s t : State, Running s → tickPjan (atStep3 s) = .go t → NoStall t →
    let u := fetchNext t
    let c := decodeCommon u.pcs.ir
    step s = execWord u
      ∧ (∀ i, decode u.pcs.ir = .ok i → step s = exec i u)
      ∧ (∀ r, decode u.pcs.ir = .error r →
          (∃ d, step s = .next d ∧ Dead d ∧ d.files = u.files ∧ d.data.q = u.data.q)
            ∧ (FetchReady c u → step s = .next (raiseDie (afterFetch c u))))

/-- Step 5 (40_cycle R192 to R197): the advance of the program counters, the history, the fetch or the forced
instruction, the overlay, and the statistics counters; nothing else changes. -/
def Obligations.FetchAdvancesAndMerges : Prop :=
  ∀ s : State,
    let t := fetchNext s
    let stored := s.store.cram.read ((s.store.cramMap.read (s.pcs.nextPC.toNat / 16)).toNat * 16 + s.pcs.nextPC.toNat % 16)
    let base := if s.pcs.irForced then s.pcs.ir else stored
    t.pcs.currentPC = s.pcs.nextPC
      ∧ (∀ x, s.pcs.afterNextPC = some x → t.pcs.nextPC = x)
      ∧ (s.pcs.afterNextPC = none → t.pcs.nextPC.toNat = (s.pcs.nextPC.toNat + 1) % 2 ^ 16)
      ∧ t.pcs.afterNextPC = none
      ∧ t.pcs.irForced = false
      ∧ t.pcs.popjCountdown = s.pcs.popjCountdown
      ∧ (s.overlay.pending = false → t.pcs.ir = base ∧ t.overlay = s.overlay)
      ∧ (s.overlay.pending = true →
          (∀ k, k < 32 → t.pcs.ir.getLsbD k = (base.getLsbD k || s.overlay.low.getLsbD k))
            ∧ (∀ k, k < 24 → t.pcs.ir.getLsbD (32 + k) = (base.getLsbD (32 + k) || s.overlay.high.getLsbD k))
            ∧ t.overlay = { low := 0, high := 0, pending := false })
      ∧ (∀ n, t.spyUnit.history.read n = if n = s.spyUnit.historyPtr.toNat then s.pcs.nextPC else s.spyUnit.history.read n)
      ∧ t.spyUnit.historyPtr.toNat = (s.spyUnit.historyPtr.toNat + 1) % 4096
      ∧ t.modes.statCounter.toNat =
          (s.modes.statCounter.toNat + (match s.modes.rgMode.toNat / 4 % 4 with
            | 0 => 1
            | 1 => if t.pcs.ir.getLsbD 53 then 1 else 0
            | _ => 0)) % 2 ^ 32
      ∧ t.modes.auxStatCounter.toNat =
          (s.modes.auxStatCounter.toNat + (match s.modes.rgMode.toNat / 16 % 4 with
            | 0 => 1
            | 1 => if t.pcs.ir.getLsbD 53 then 1 else 0
            | _ => 0)) % 2 ^ 32
      ∧ t = { s with pcs := t.pcs, overlay := t.overlay,
                     spyUnit := { s.spyUnit with history := t.spyUnit.history, historyPtr := t.spyUnit.historyPtr },
                     modes := { s.modes with statCounter := t.modes.statCounter, auxStatCounter := t.modes.auxStatCounter } }

/-- Every step completes with a next state and takes one tick of the platform (40_cycle R181; the tick list is
the model's, log 7). -/
def Obligations.EveryStepCompletes : Prop :=
  ∀ s : State, ∃ t, step s = .next t ∧ t.inputs = s.inputs.tail

/-- A halted engine and a held engine do nothing after the bus steps: no stall is consumed, PJAN does not tick,
nothing executes (40_cycle R184, R187). -/
def Obligations.HaltedOrHeldEngineOnlyServesTheBus : Prop :=
  ∀ s : State, spySelected (atStep3 s) = false →
    ((atStep3 s).run.halted = true ∨ (atStep3 s).stalls.forceHold = true) →
    ∃ t, step s = .next t ∧ t = atStep3 s ∧ t.pcs = (platformTick s).pcs ∧ t.stalls = (platformTick s).stalls
      ∧ t.modes = (platformTick s).modes ∧ t.ustack = (platformTick s).ustack ∧ t.spyUnit = (platformTick s).spyUnit

/-- At most one stall is consumed in a cycle, in the order slow destination, long instruction, NOP-next,
control-store write, macro-dispatch countdown (40_cycle R185, R186, R189, R190). -/
def Obligations.OneStallPerCycleByPriority : Prop :=
  ∀ s t : State, Running s → tickPjan (atStep3 s) = .go t →
    (t.stalls.slowDest = true → step s = .next { t with stalls := { t.stalls with slowDest := false } })
      ∧ (t.stalls.slowDest = false → t.stalls.longInst = true →
          step s = .next { t with stalls := { t.stalls with longInst := false } })
      ∧ (t.stalls.slowDest = false → t.stalls.longInst = false → t.stalls.nopNext = true →
          step s = .next { t with stalls := { t.stalls with nopNext := false } })
      ∧ (t.stalls.slowDest = false → t.stalls.longInst = false → t.stalls.nopNext = false → t.stalls.csWrite = true →
          step s = .next { t with stalls := { t.stalls with csWrite := false } })
      ∧ (∀ n, t.stalls.slowDest = false → t.stalls.longInst = false → t.stalls.nopNext = false →
          t.stalls.csWrite = false → t.stalls.macroDispatch = n + 1 →
          step s = .next { t with stalls := { t.stalls with macroDispatch := n } })

/-- PJAN at step 4 (44_microstack_pjan R386, R387): a positive countdown ticks, a countdown of 0 pops the
return address into `nextPC`, and with the after-next slot filled the cycle dies instead. -/
def Obligations.PjanTicksAndFires : Prop :=
  (∀ s : State, s.pcs.popjCountdown = none → tickPjan s = .go s)
    ∧ (∀ (s : State) (n k : Fin 3), s.pcs.popjCountdown = some n → n.val = k.val + 1 →
        tickPjan s = .go { s with pcs := { s.pcs with popjCountdown := some k } })
    ∧ (∀ s : State, s.pcs.popjCountdown = some 0 → s.pcs.afterNextPC = none →
        tickPjan s = .go { s with
          pcs := { s.pcs with nextPC := s.ustack.ring.read s.ustack.ptr.toNat, popjCountdown := none }
          ustack := { s.ustack with ptr := BitVec.ofNat 8 (s.ustack.ptr.toNat + 255) } })
    ∧ (∀ (s : State) (x : MicroAddr), Running s → (atStep3 s).pcs.popjCountdown = some 0 →
        (atStep3 s).pcs.afterNextPC = some x →
        ∃ t, step s = .next t ∧ Dead t ∧ t.pcs = (atStep3 s).pcs ∧ t.ustack = (atStep3 s).ustack)

/-- The bits every instruction acts on at step 11, when it has not died: stall arming, PJAN arming, halting
(40_cycle R210, R211, R213; 44_microstack_pjan R385). -/
def Obligations.CommonBitsTakeEffectAtEndOfCycle : Prop :=
  ∀ (i : Instr) (s t : State), exec i s = .next t → t.run.dieRequest = false →
    t.stalls.slowDest = (i.common.slowDest || s.stalls.slowDest)
      ∧ t.stalls.longInst = (i.common.ilong || s.stalls.longInst)
      ∧ t.run.halted = (i.common.halt || s.run.singleStepMode || s.run.halted)
      ∧ (i.common.pjan = true → t.pcs.popjCountdown = some (if i.common.slowDest then 2 else 1))

/-! ## Operand fetch -/

/-- Steps 6 and 7 go through exactly when the macro-stream read can start and the M source can be read, and
then give the A word, the M source's value after the macro-stream step, and the state after both (40_cycle
R198 to R200). -/
def Obligations.OperandFetchCompletes : Prop :=
  ∀ (c : Common) (s : State),
    (FetchReady c s → fetchOperands c s = .go (s.files.amem.read c.aSrc.toNat, mValue c s, afterFetch c s))
      ∧ (¬ FetchReady c s → ∃ cause t, fetchOperands c s = .die cause t)

/-- The macro-stream step (40_cycle R198): with neither bit set nothing happens; with one or both set a read of
the word `LC` names is started and `LC` advances by 2, even when the translation faults. -/
def Obligations.MacroStreamStepReadsAndAdvances : Prop :=
  ∀ (c : Common) (s : State),
    (c.mf = false → c.msa = false → afterStream c s = s)
      ∧ ((c.mf = true ∨ c.msa = true) → StreamReady c s →
          Started (BitVec.ofNat 32 (s.stream.lc.toNat / 4 % 2 ^ 25)) .read false .streamRead s (afterStream c s)
            ∧ (afterStream c s).stream.lc.toNat = (s.stream.lc.toNat + 2) % 2 ^ 32
            ∧ (afterStream c s).stream.macroIR = s.stream.macroIR ∧ (afterStream c s).vm.md = s.vm.md)

/-- What an M source does besides giving a value (41_sources_destinations R243, R247; 44_microstack_pjan
R391): only the two popping sources change anything, and `MICRO_STACK_POP` with PJAN armed also performs the
deferred return. -/
def Obligations.OnlyPoppingSourcesHaveEffects : Prop :=
  ∀ (c : Common) (s : State), SourceReady c.mSrc s →
    let u := afterStream c s
    (c.mSrc ≠ .microStackPop → c.mSrc ≠ .cPdlPointerPop → afterFetch c s = u)
      ∧ (c.mSrc = .cPdlPointerPop →
          afterFetch c s = { u with data := { u.data with pdlPointer := BitVec.ofNat 12 (u.data.pdlPointer.toNat + 4095) } })
      ∧ (c.mSrc = .microStackPop → s.pcs.popjCountdown = none →
          afterFetch c s = { u with ustack := { u.ustack with ptr := BitVec.ofNat 8 (u.ustack.ptr.toNat + 255) } })
      ∧ (c.mSrc = .microStackPop → s.pcs.popjCountdown ≠ none →
          afterFetch c s = { u with
            ustack := { u.ustack with ptr := BitVec.ofNat 8 (u.ustack.ptr.toNat + 254) }
            pcs := { u.pcs with nextPC := u.ustack.ring.read ((u.ustack.ptr.toNat + 255) % 256), popjCountdown := none } })

/-- The value of each M source (41_sources_destinations R231, R233 to R238, R242 to R257), as numbers. -/
def Obligations.MSourceValues : Prop :=
  ∀ (s : State) (n : BitVec 6),
    let md := s.vm.md
    sourceValue (.m n) s = s.files.mmem.read n.toNat
      ∧ (∀ p ∈ [(MSource.md, md), (.vma, s.vm.vma), (.q, s.data.q), (.lc, s.stream.lc), (.macroIR, s.stream.macroIR),
          (.cPdlPointer, s.files.mmem.read s.data.pdlPointer.toNat),
          (.cPdlPointerPop, s.files.mmem.read s.data.pdlPointer.toNat),
          (.cPdlIndex, s.files.mmem.read s.data.pdlIndex.toNat),
          (.statCounter, s.modes.statCounter), (.statCounterAux, s.modes.auxStatCounter),
          (.multiplierOutput, s.data.multFT), (.dpMode, s.modes.dpMode), (.rgMode, s.modes.rgMode)],
          sourceValue p.1 s = p.2)
      ∧ (∀ p ∈ [(MSource.dispatchConstant, s.data.dispatchConstant.toNat),
          (.microStackPeek, (s.ustack.ring.read s.ustack.ptr.toNat).toNat),
          (.microStackPop, (s.ustack.ring.read s.ustack.ptr.toNat).toNat),
          (.pdlPointer, s.data.pdlPointer.toNat), (.pdlIndex, s.data.pdlIndex.toNat),
          (.interruptPointer, s.intr.vector.toNat),
          (.lv1Map, (s.vm.lv1.read (md.toNat / 2 ^ 13 % 4096)).toNat),
          (.lv2MapControl, (s.vm.lv2c.read (level2Index s md)).toNat),
          (.lv2MapAddress, (s.vm.lv2a.read (level2Index s md)).toNat)],
          (sourceValue p.1 s).toNat = p.2)

/-! ## ALU instructions -/

/-- The eight logical operations (42_alu R311 to R318): each bit of the result is the bit of the operation's
code that 30_encoding R151's truth table names, and the carry-out is the sign bit (R330). -/
def Obligations.LogicalAluInstructionsComplete : Prop :=
  ∀ (c : Common) (f : AluFields) (s : State) (code : Nat) (i : Instr) (r : Word),
    (code, i) ∈ [(0x00, Instr.aluSetz c f), (0x01, .aluAnd c f), (0x02, .aluAndca c f), (0x03, .aluSetm c f),
      (0x05, .aluSeta c f), (0x06, .aluXor c f), (0x07, .aluIor c f), (0x0F, .aluSeto c f)] →
    (∀ k, k < 32 → r.getLsbD k =
      code.testBit (2 * (1 - ((mValue c s).getLsbD k).toNat) + (1 - ((aValue c s).getLsbD k).toNat))) →
    FetchReady c s → AluDone i c f s r (r.getLsbD 31)

/-- The four step operations (42_alu R319 to R322): the 33-bit sum, chosen by bit 0 of Q. -/
def Obligations.StepAluInstructionsComplete : Prop :=
  ∀ (c : Common) (f : AluFields) (s : State) (i : Instr) (wide : Nat),
    let a := (aValue c s).toNat
    let m := (mValue c s).toNat
    let q0 := s.data.q.getLsbD 0
    (i, wide) ∈ [(Instr.aluMstep c f, if q0 then m + a else m),
      (.aluDstep c f, if q0 then m + (2 ^ 32 - 1 - a) + 1 else m + a),
      (.aluDfstep c f, m + (2 ^ 32 - 1 - a) + 1),
      (.aluRstep c f, if q0 then m else m + a)] →
    FetchReady c s → AluDone i c f s (BitVec.ofNat 32 wide) (decide (2 ^ 32 ≤ wide))

/-- The four operations with a carry-in (42_alu R323 to R325, R327): the 33-bit sum. -/
def Obligations.CarryAluInstructionsComplete : Prop :=
  ∀ (c : Common) (f : AluFields) (s : State) (i : Instr) (wide : Nat),
    let a := (aValue c s).toNat
    let m := (mValue c s).toNat
    let cin := f.carry.toNat
    (i, wide) ∈ [(Instr.aluSub c f, m + (2 ^ 32 - 1 - a) + cin), (.aluAdd c f, m + a + cin), (.aluIncm c f, m + cin),
      (.aluMplusm c f, m + m + cin)] →
    FetchReady c s → AluDone i c f s (BitVec.ofNat 32 wide) (decide (2 ^ 32 ≤ wide))

/-- The fixnum-overflow flag of ADD is set exactly when the signed sum with the carry-in does not fit 32 bits
(42_alu R326). -/
def Obligations.AddOverflowIsSignedOverflow : Prop :=
  ∀ (a m : Word) (cin q0 : Bool),
    (aluOpAdd a m cin q0).overflow = true ↔
      (m.toInt + a.toInt + (cin.toNat : Int) < -2 ^ 31 ∨ 2 ^ 31 ≤ m.toInt + a.toInt + (cin.toNat : Int))

/-- The seven output selector modes, bit by bit, and the illegal eighth (42_alu R335 to R342). -/
def Obligations.OutputSelectorModes : Prop :=
  ∀ (r a q : Word) (carry : Bool),
    outputSelector .pass r carry a q = some r
      ∧ (∃ o, outputSelector .shiftRight r carry a q = some o ∧ o.toNat = carry.toNat * 2 ^ 31 + r.toNat / 2)
      ∧ (∃ o, outputSelector .signExtend r carry a q = some o
          ∧ o.toInt = if r.toNat % 2 ^ 25 < 2 ^ 24 then ((r.toNat % 2 ^ 25 : Nat) : Int) else ((r.toNat % 2 ^ 25 : Nat) : Int) - 2 ^ 25)
      ∧ (∃ o, outputSelector .low11 r carry a q = some o ∧ o.toNat = r.toNat % 2 ^ 11)
      ∧ (∃ o, outputSelector .shiftLeft r carry a q = some o ∧ o.toNat = 2 * r.toNat % 2 ^ 32 + q.toNat / 2 ^ 31)
      ∧ (∃ o, outputSelector .mirror r carry a q = some o ∧ ∀ k, k < 32 → o.getLsbD k = r.getLsbD (31 - k))
      ∧ (∃ o, outputSelector .masked r carry a q = some o ∧ o.toNat = a.toNat / 2 ^ 25 * 2 ^ 25 + r.toNat % 2 ^ 25)
      ∧ outputSelector .undefined r carry a q = none

/-- The four Q updates (42_alu R345 to R348). -/
def Obligations.QUpdates : Prop :=
  ∀ q r : Word,
    updateQ .keep q r = q
      ∧ (updateQ .left q r).toNat = 2 * q.toNat % 2 ^ 32 + (1 - r.toNat / 2 ^ 31)
      ∧ (updateQ .right q r).toNat = r.toNat % 2 * 2 ^ 31 + q.toNat / 2
      ∧ updateQ .load q r = r

/-- Thirty-two multiply steps (42_alu R350): from partial product 0 and the multiplier in Q, repeating MSTEP
with output mode 1 and Q shifting right leaves the 64-bit product in the pair of the output and Q. -/
def Obligations.MultiplyStepsGiveTheProduct : Prop :=
  ∀ a q : Word,
    let one := fun (p : Word × Word) =>
      let w := (aluOpMstep a p.1 false (p.2.getLsbD 0)).wide
      ((outputSelector .shiftRight (maskedResult false a w) (w.getLsbD 32) a p.2).getD 0,
        updateQ .right p.2 (maskedResult false a w))
    let p := Nat.repeat one 32 (0, q)
    p.1.toNat * 2 ^ 32 + p.2.toNat = a.toNat * q.toNat

/-! ## BYTE instructions -/

/-- The four BYTE instructions (43_byte R360 to R367): bit `k` of the output is the (rotated) M bit inside the
mask, the A bit outside it. -/
def Obligations.ByteInstructionsComplete : Prop :=
  ∀ (c : Common) (f : ByteFields) (s : State) (i : Instr) (rsrc rmask : Bool) (o : Word),
    (i, rsrc, rmask) ∈ [(Instr.byteLow c f, false, false), (.byteSeldep c f, false, true), (.byteLdb c f, true, false),
      (.byteDpb c f, true, true)] →
    (∀ k, k < 32 → o.getLsbD k =
      if (if rmask then f.rot.toNat else 0) ≤ k ∧ k < ((if rmask then f.rot.toNat else 0) + f.len.toNat) % 33 then
        (mValue c s).getLsbD (if rsrc then (k + 32 - f.rot.toNat) % 32 else k)
      else (aValue c s).getLsbD k) →
    FetchReady c s → DestReady f.dest o (afterFetch c s) →
    ∃ s9, writeback f.dest o (afterFetch c s) = .go s9 ∧ Stored f.dest o s9
      ∧ exec i s = .next (endOfCycle c s9)

/-- Depositing a field at rotate `R`, length `L` and loading it back at the same place returns its low `L` bits
whenever `R + L` is at most 32 (43_byte R368). -/
def Obligations.DepositThenLoadReturnsTheField : Prop :=
  ∀ (b field : Word) (r : BitVec 5) (l : BitVec 6), r.toNat + l.toNat ≤ 32 →
    (shift 0 (shift b field r l true true) (BitVec.ofNat 5 ((32 - r.toNat) % 32)) l false true).toNat
      = field.toNat % 2 ^ l.toNat

/-! ## Destinations -/

/-- Writeback goes through exactly when the destination is documented and a start destination can start, and
then the memory word the destination names holds the output (41_sources_destinations R262 to R264, R292). -/
def Obligations.WritebackStoresTheOutput : Prop :=
  ∀ (d : Dest) (o : Word) (s : State),
    (DestReady d o s → ∃ t, writeback d o s = .go t ∧ Stored d o t)
      ∧ (¬ DestReady d o s → ∃ cause t, writeback d o s = .die cause t ∧ t.files = s.files)

/-- The destinations that load one register (41_sources_destinations R266 to R270, R274, R279, R286, R288 to
R291), as numbers. -/
def Obligations.RegisterDestinationsLoad : Prop :=
  ∀ (f : FuncDest) (m : BitVec 6) (o : Word) (s t : State), writeback (.func f m) o s = .go t →
    (f = .lc → t.stream.lc = o) ∧ (f = .dpMode → t.modes.dpMode = o) ∧ (f = .rgMode → t.modes.rgMode = o)
      ∧ (f = .pdlPointer → t.data.pdlPointer.toNat = o.toNat % 4096)
      ∧ (f = .pdlIndex → t.data.pdlIndex.toNat = o.toNat % 4096)
      ∧ (f = .vma → t.vm.vma = o ∧ t.vm.pageFault = s.vm.pageFault ∧ t.requests = s.requests)
      ∧ (f = .md → t.vm.md = o)
      ∧ (f = .multiplierInput → t.data.multIn = o
          ∧ (s.cfg.multSigned = false → t.data.multFT.toNat = (o.toNat % 2 ^ 16) * (o.toNat / 2 ^ 16))
          ∧ (s.cfg.multSigned = true →
              t.data.multFT.toInt = (o.extractLsb' 0 16).toInt * (o.extractLsb' 16 16).toInt))
      ∧ (f = .statCounter → t.modes.statCounter = o) ∧ (f = .statCounterAux → t.modes.auxStatCounter = o)
      ∧ (f = .imodLow → t.overlay = { s.overlay with low := s.overlay.low ||| o, pending := true })
      ∧ (f = .imodHigh →
          t.overlay = { s.overlay with high := s.overlay.high ||| BitVec.ofNat 24 o.toNat, pending := true })

/-- The destinations that store into a memory beside the register files (41_sources_destinations R271 to R273,
R280 to R285), word by word. -/
def Obligations.MemoryDestinationsStore : Prop :=
  ∀ (f : FuncDest) (m : BitVec 6) (o : Word) (s t : State), writeback (.func f m) o s = .go t →
    let u := s.ustack.ring.read s.ustack.ptr.toNat
    let slot := (s.store.cramMap.read (u.toNat / 16)).toNat * 16 + u.toNat % 16
    (∀ a : BitVec 12, t.files.mmem.read a.toNat =
        if a = m.setWidth 12 ∨ pdlStore f s = some a then o else s.files.mmem.read a.toNat)
      ∧ (f = .cPdlPointerPush → t.data.pdlPointer.toNat = (s.data.pdlPointer.toNat + 1) % 4096)
      ∧ (f = .lv1Map → ∀ a, t.vm.lv1.read a =
          if a = s.vm.md.toNat / 2 ^ 13 % 4096 then BitVec.ofNat 10 o.toNat else s.vm.lv1.read a)
      ∧ (f = .lv2MapControl → ∀ a, t.vm.lv2c.read a =
          if a = level2Index s s.vm.md then BitVec.ofNat 16 o.toNat else s.vm.lv2c.read a)
      ∧ (f = .lv2MapAddress → ∀ a, t.vm.lv2a.read a =
          if a = level2Index s s.vm.md then BitVec.ofNat 24 o.toNat else s.vm.lv2a.read a)
      ∧ (f = .cramLow → t.stalls.csWrite = true ∧ ∀ a, (t.store.cram.read a).toNat =
          if a = slot then (s.store.cram.read a).toNat / 2 ^ 32 * 2 ^ 32 + o.toNat else (s.store.cram.read a).toNat)
      ∧ (f = .cramHigh → t.stalls.csWrite = true ∧ ∀ a, (t.store.cram.read a).toNat =
          if a = slot then o.toNat % 2 ^ 24 * 2 ^ 32 + (s.store.cram.read a).toNat % 2 ^ 32 else (s.store.cram.read a).toNat)
      ∧ (f = .cramMap → t.stalls.csWrite = true ∧ ∀ a, t.store.cramMap.read a =
          if a = u.toNat / 16 then BitVec.ofNat 12 o.toNat else s.store.cramMap.read a)

/-- The four start destinations load VMA, translate it, and issue one request unless the translation faults
(41_sources_destinations R275 to R278; 20_memory R94, R113). -/
def Obligations.StartDestinationsIssueRequests : Prop :=
  ∀ (f : FuncDest) (kind : AccessKind) (force : Bool) (pend : BusPending) (m : BitVec 6) (o : Word) (s : State),
    (f, kind, force, pend) ∈ [(FuncDest.vmaStartRead, AccessKind.read, false, BusPending.dataRead),
      (.vmaStartWrite, .write, false, .dataWrite), (.vmaStartReadForce, .read, true, .dataRead),
      (.vmaStartWriteForce, .write, true, .dataWrite)] →
    (FaultRule s o kind force ∨ s.client.busPending = .idle) →
    ∃ t, writeback (.func f m) o s = .go t ∧ Started o kind force pend s t ∧ t.vm.md = s.vm.md

/-- A memory operation that does not fault while a transaction is outstanding raises `Die` and hands out no
request: at a start destination of an ALU or BYTE instruction, at the macro-stream step of any instruction,
at the start-read of a DISPATCH, which then does not transfer (20_memory R113; 46_dispatch R436, R441). -/
def Obligations.SecondTransactionDies : Prop :=
  (∀ (f : FuncDest) (kind : AccessKind) (force : Bool) (m : BitVec 6) (o : Word) (s : State),
      f.start = some (kind, force) → ¬ FaultRule s o kind force → s.client.busPending ≠ .idle →
      ∃ t, writeback (.func f m) o s = .die .busIssueWhilePending t ∧ t.requests = s.requests ∧ t.files = s.files)
    ∧ (∀ (i : Instr) (s : State), i.common.streams = true → ¬ FaultRule s (streamAddress s) .read false →
        s.client.busPending ≠ .idle →
        ∃ t, exec i s = .next t ∧ Dead t ∧ t.requests = s.requests ∧ t.files = s.files ∧ t.stream = s.stream)
    ∧ (∀ (c : Common) (f : DispatchFields) (s : State) (i : Instr) (w : Word),
        let u := afterFetch c s
        let m := mValue c s
        (i, w) ∈ [(Instr.dispatch c f, s.files.amem.read (tableIndex c f m u)), (.dispatchMir c f, macroWord u)] →
        FetchReady c s → w.getLsbD 19 = true → ¬ FaultRule u m .read false → u.client.busPending ≠ .idle →
        ∃ t, exec i s = .next t ∧ Dead t ∧ t.requests = u.requests ∧ t.client = u.client ∧ t.files = s.files
          ∧ t.pcs = u.pcs ∧ t.ustack = u.ustack
          ∧ (w.toNat / 2 ^ 16 % 8 < 6 → t.vm.vma = m ∧ t.vm.pageFault = false))

/-! ## The translator and the interrupt state -/

/-- A translation faults exactly as the table of access rights says (20_memory R94, R96, R97), and its latches
are left as R94 and R95 say. -/
def Obligations.TranslationFollowsAccessRights : Prop :=
  ∀ (s : State) (v : Word) (kind : AccessKind) (force : Bool),
    let t := resolve v kind force s
    let page := s.vm.lv2a.read (level2Index s v)
    (t.vm.pageFault = true ↔ FaultRule s v kind force)
      ∧ t.vm.cachedGeneration.toNat = (s.vm.lv2c.read (level2Index s v)).toNat % 64
      ∧ (FaultRule s v kind force →
          t.vm.physAddr = s.vm.physAddr ∧ t.vm.byteMode = s.vm.byteMode ∧ t.vm.byteSel = s.vm.byteSel)
      ∧ (¬ FaultRule s v kind force →
          t.vm.physAddr.toNat = page.toNat % 2 ^ 22 * 256 + v.toNat % 256
            ∧ t.vm.byteSel.toNat = page.toNat / 2 ^ 22 ∧ (t.vm.byteMode = true ↔ page.toNat / 2 ^ 22 ≠ 0))

/-- A write to the interrupt-status window (60_exceptions R501, R504): a raise counts only when enabled and not
yet pending, a withdrawal only when pending; the active vector becomes the lowest pending one, or stays when
none is. -/
def Obligations.InterruptWindowWrites : Prop :=
  ∀ (s : State) (v : BitVec 8) (d : Bool),
    let t := intWrite v d s
    let raised := d = true ∧ s.modes.rgMode.getLsbD 0 = true ∧ s.intr.status.read v.toNat = 0
    let withdrawn := d = false ∧ s.intr.status.read v.toNat = 1
    (raised → t.intr.pending = s.intr.pending + 1) ∧ (withdrawn → t.intr.pending = s.intr.pending - 1)
      ∧ (¬ raised → ¬ withdrawn → t.intr.pending = s.intr.pending)
      ∧ (raised → ∀ n, t.intr.status.read n = if n = v.toNat then 1 else s.intr.status.read n)
      ∧ (withdrawn → ∀ n, t.intr.status.read n = if n = v.toNat then 0 else s.intr.status.read n)
      ∧ (¬ raised → ¬ withdrawn → ∀ n, t.intr.status.read n = s.intr.status.read n)
      ∧ ((∃ n, n < 256 ∧ t.intr.status.read n = 1) →
          t.intr.status.read t.intr.vector.toNat = 1 ∧ ∀ n, n < t.intr.vector.toNat → t.intr.status.read n = 0)
      ∧ ((∀ n, n < 256 → t.intr.status.read n = 0) → t.intr.vector = s.intr.vector)

/-- Step 2 serves a request in the interrupt-status window and goes on (20_memory R121; 60_exceptions R501,
R502): it is acknowledged, a write acts on the vector the address names, a read delivers its status bit; a
request elsewhere is left alone. -/
def Obligations.InterruptWindowIsServedInStepTwo : Prop :=
  ∀ s : State,
    let base := (0xF0 + s.client.busID.val) * 2 ^ 24 + 0x400
    let hit := s.bus.busy = true ∧ s.bus.ack = false ∧ s.bus.error = false ∧ base ≤ s.bus.address.toNat
      ∧ s.bus.address.toNat < base + 0x400
    let v := BitVec.ofNat 8 ((s.bus.address.toNat - base) / 4)
    let t := interruptWindow s
    (¬ hit → t = s)
      ∧ (hit → (s.bus.kind = .writeWord ∨ s.bus.kind = .writeByte) →
          t.bus = { s.bus with ack := true } ∧ t.intr = (intWrite v (s.bus.data.getLsbD 0) s).intr)
      ∧ (hit → (s.bus.kind = .readWord ∨ s.bus.kind = .readByte) →
          t.bus.ack = true ∧ t.bus.data.toNat = (s.intr.status.read v.toNat).toNat ∧ t.intr = s.intr)
      ∧ t.pcs = s.pcs ∧ t.run = s.run

/-- The `INTERRUPT_CLEAR` destination (41_sources_destinations R287; 60_exceptions R503, R504): the active
vector's bit is cleared and counted off, and the vector recomputed. -/
def Obligations.InterruptClearClearsTheActiveVector : Prop :=
  ∀ (m : BitVec 6) (o : Word) (s : State),
    ∃ t, writeback (.func .interruptClear m) o s = .go t
      ∧ t.intr.pending = (if s.intr.status.read s.intr.vector.toNat = 1 then s.intr.pending - 1 else s.intr.pending)
      ∧ (∀ n, t.intr.status.read n = if n = s.intr.vector.toNat then 0 else s.intr.status.read n)
      ∧ (∀ n, n < 256 → t.intr.status.read n = 1 →
          t.intr.status.read t.intr.vector.toNat = 1 ∧ t.intr.vector.toNat ≤ n)
      ∧ ((∀ n, n < 256 → t.intr.status.read n = 0) → t.intr.vector = s.intr.vector)

/-! ## The micro-return-stack -/

/-- Pushing up to 256 addresses and popping as many replays them in reverse order and restores the pointer,
from any starting pointer (44_microstack_pjan R380, R381, R384). -/
def Obligations.PushesReplayInReverse : Prop :=
  ∀ (s : State) (l : List MicroAddr), l.length ≤ 256 →
    let pushed := l.foldl (fun t a => push a t) s
    (∀ k (h : k < l.length), peek (Nat.repeat dropTop k pushed) = l[l.length - 1 - k])
      ∧ (Nat.repeat dropTop l.length pushed).ustack.ptr = s.ustack.ptr

/-! ## JUMP and DISPATCH instructions -/

/-- The six JUMP instructions when taken (45_jump R400 to R416; 44_microstack_pjan R390): the transfer's
effect on the program counters and the stack, and PJAN after it. -/
def Obligations.TakenJumpsTransfer : Prop :=
  ∀ (c : Common) (f : JumpFields) (s : State) (tr : Transfer) (i : Instr),
    (tr, i) ∈ [(Transfer.jumpXctNext, Instr.jumpXctNext c f), (.jump, .jump c f), (.callXctNext, .callXctNext c f),
      (.call, .call c f), (.retXctNext, .retXctNext c f), (.ret, .ret c f)] →
    FetchReady c s → f.test.legal = true → Taken f (aValue c s) (mValue c s) (afterFetch c s) →
    (tr.xctNext = true → s.pcs.afterNextPC = none) →
    ∃ t, exec i s = .next t ∧ Transferred tr f.addr f.lpc (afterFetch c s) t
      ∧ t.pcs.popjCountdown = pjanAfter c tr.calls (afterFetch c s) ∧ t.run.dieRequest = s.run.dieRequest

/-- A JUMP that is not taken changes nothing except what its M source and its common bits do (45_jump R400). -/
def Obligations.UntakenJumpsFallThrough : Prop :=
  ∀ (c : Common) (f : JumpFields) (s : State) (i : Instr),
    i ∈ [Instr.jumpXctNext c f, .jump c f, .callXctNext c f, .call c f, .retXctNext c f, .ret c f] →
    FetchReady c s → f.test.legal = true → ¬ Taken f (aValue c s) (mValue c s) (afterFetch c s) →
    exec i s = .next (endOfCycle c (afterFetch c s))

/-- The GC-volatility bit compares the level-1 generation of MD's region with the low two bits of the cached
generation, unsigned, under the default parameter (46_dispatch R437; another relation is log 6). -/
def Obligations.GcVolatilityComparesGenerations : Prop :=
  ∀ s : State, s.cfg.gcvCompare = .generationGreater →
    (gcVolatileBit s = true ↔
      s.vm.cachedGeneration.toNat % 4 < (s.vm.lv1.read (s.vm.md.toNat / 2 ^ 13 % 4096)).toNat / 128 % 4)

/-- The two DISPATCH instructions (46_dispatch R430 to R436, R440; 45_jump R411 to R416): the dispatch word is
read from A-memory or from the macro-dispatch memory, its start-read begins a read of the M operand, and its
code's transfer happens. -/
def Obligations.DispatchesTransferByTheirWord : Prop :=
  ∀ (c : Common) (f : DispatchFields) (s : State) (tr : Transfer) (i : Instr) (w : Word) (countdown : Nat),
    let u := afterFetch c s
    let m := mValue c s
    (i, w, countdown) ∈ [(Instr.dispatch c f, s.files.amem.read (tableIndex c f m u), s.stalls.macroDispatch),
      (.dispatchMir c f, macroWord u, s.cfg.midStallCycles)] →
    FetchReady c s → tr.code = w.toNat / 2 ^ 16 % 8 →
    (w.getLsbD 19 = true → FaultRule u m .read false ∨ u.client.busPending = .idle) →
    (tr.xctNext = true → s.pcs.afterNextPC = none) →
    ∃ t, exec i s = .next t ∧ Transferred tr (BitVec.ofNat 16 w.toNat) f.lpc u t
      ∧ t.pcs.popjCountdown = pjanAfter c tr.calls u ∧ t.data.dispatchConstant = f.dconst
      ∧ t.stalls.macroDispatch = countdown
      ∧ (w.getLsbD 19 = true → Started m .read false .dataRead u t)
      ∧ (w.getLsbD 19 = false → t.vm = u.vm ∧ t.requests = u.requests ∧ t.client = u.client)
      ∧ t.run.dieRequest = s.run.dieRequest

/-! ## What instructions leave unchanged -/

/-- Every memory word that an instruction does not store to is unchanged, whatever the instruction and
whether or not it dies: A-memory, M-memory, the control store and its map, the macro-dispatch memory, the
level-1 and level-2 maps, the history and the timing RAM; and the micro-return-stack's entries but the one a
CALL stores (44_microstack_pjan R380, R390). -/
def Obligations.InstructionsLeaveOtherMemoryUnchanged : Prop :=
  ∀ (i : Instr) (s t : State), exec i s = .next t →
    let u := afterFetch i.common s
    let top := u.ustack.ring.read u.ustack.ptr.toNat
    (∀ a : BitVec 12, ¬ StoresA i s a → t.files.amem.read a.toNat = s.files.amem.read a.toNat)
      ∧ (∀ a : BitVec 12, ¬ StoresM i s a → t.files.mmem.read a.toNat = s.files.mmem.read a.toNat)
      ∧ (∀ n, ¬ ((i.func = some .cramLow ∨ i.func = some .cramHigh)
            ∧ n = (s.store.cramMap.read (top.toNat / 16)).toNat * 16 + top.toNat % 16) →
          t.store.cram.read n = s.store.cram.read n)
      ∧ (∀ n, ¬ (i.func = some .cramMap ∧ n = top.toNat / 16) → t.store.cramMap.read n = s.store.cramMap.read n)
      ∧ t.store.mid = s.store.mid
      ∧ (∀ n, ¬ (i.func = some .lv1Map ∧ n = s.vm.md.toNat / 2 ^ 13 % 4096) → t.vm.lv1.read n = s.vm.lv1.read n)
      ∧ (∀ n, ¬ (i.func = some .lv2MapControl ∧ n = level2Index s s.vm.md) → t.vm.lv2c.read n = s.vm.lv2c.read n)
      ∧ (∀ n, ¬ (i.func = some .lv2MapAddress ∧ n = level2Index s s.vm.md) → t.vm.lv2a.read n = s.vm.lv2a.read n)
      ∧ t.spyUnit = s.spyUnit
      ∧ (∀ n : BitVec 8, ¬ StoresStack i s n → t.ustack.ring.read n.toNat = s.ustack.ring.read n.toNat)

/-- Every register is unchanged but those the instruction's format, M source or destination names: the data
path, the macro stream, the virtual-memory registers, the modes and counters, the interrupts, the overlay,
the bus client. -/
def Obligations.InstructionsLeaveOtherRegistersUnchanged : Prop :=
  ∀ (i : Instr) (s t : State), exec i s = .next t →
    ((∀ f, i.aluFields = some f → f.qctl = .keep) → t.data.q = s.data.q)
      ∧ (i.func ≠ some .multiplierInput → t.data.multIn = s.data.multIn ∧ t.data.multFT = s.data.multFT)
      ∧ (i.common.mSrc ≠ .cPdlPointerPop → i.func ≠ some .pdlPointer → i.func ≠ some .cPdlPointerPush →
          t.data.pdlPointer = s.data.pdlPointer)
      ∧ (i.func ≠ some .pdlIndex → t.data.pdlIndex = s.data.pdlIndex)
      ∧ (i.isDispatch = false → t.data.dispatchConstant = s.data.dispatchConstant)
      ∧ t.stream.macroIR = s.stream.macroIR
      ∧ (i.common.streams = false → i.func ≠ some .lc → t.stream.lc = s.stream.lc)
      ∧ (i.mayStart = false → i.func ≠ some .vma → t.vm.vma = s.vm.vma)
      ∧ (i.func ≠ some .md → t.vm.md = s.vm.md)
      ∧ (i.mayStart = false → t.vm.pageFault = s.vm.pageFault ∧ t.vm.physAddr = s.vm.physAddr
          ∧ t.vm.byteMode = s.vm.byteMode ∧ t.vm.byteSel = s.vm.byteSel
          ∧ t.vm.cachedGeneration = s.vm.cachedGeneration ∧ t.client = s.client ∧ t.requests = s.requests)
      ∧ (i.func ≠ some .interruptClear → t.intr = s.intr)
      ∧ (i.func ≠ some .dpMode → t.modes.dpMode = s.modes.dpMode)
      ∧ (i.func ≠ some .rgMode → t.modes.rgMode = s.modes.rgMode)
      ∧ (i.func ≠ some .statCounter → t.modes.statCounter = s.modes.statCounter)
      ∧ (i.func ≠ some .statCounterAux → t.modes.auxStatCounter = s.modes.auxStatCounter)
      ∧ t.modes.configReg = s.modes.configReg ∧ t.modes.procMode = s.modes.procMode
      ∧ (i.func ≠ some .imodLow → i.func ≠ some .imodHigh → t.overlay = s.overlay)
      ∧ t.client.busError = s.client.busError ∧ t.client.busID = s.client.busID
      ∧ t.bus = s.bus ∧ t.cfg = s.cfg ∧ t.inputs = s.inputs

/-- The program counters, the stack pointer, the stall flags and the run state are unchanged but where the
instruction is one that moves them (44_microstack_pjan R383; 40_cycle R186, R212): of the run state, a
completed instruction sets `halted` for its HALT bit and in single-step mode (R213), and one that dies sets
the two bits of `Die` (60_exceptions R490). -/
def Obligations.InstructionsLeaveOtherControlStateUnchanged : Prop :=
  ∀ (i : Instr) (s t : State), exec i s = .next t →
    t.pcs.currentPC = s.pcs.currentPC ∧ t.pcs.ir = s.pcs.ir ∧ t.pcs.irForced = s.pcs.irForced
      ∧ (i.transfers = false → t.pcs.afterNextPC = s.pcs.afterNextPC ∧ t.stalls.nopNext = s.stalls.nopNext)
      ∧ (i.transfers = false → i.common.mSrc ≠ .microStackPop →
          t.pcs.nextPC = s.pcs.nextPC ∧ t.ustack = s.ustack)
      ∧ (i.transfers = false → i.common.mSrc ≠ .microStackPop → i.common.pjan = false →
          t.pcs.popjCountdown = s.pcs.popjCountdown)
      ∧ t.stalls.forceHold = s.stalls.forceHold
      ∧ (i.common.slowDest = false → t.stalls.slowDest = s.stalls.slowDest)
      ∧ (i.common.ilong = false → t.stalls.longInst = s.stalls.longInst)
      ∧ (i.func ≠ some .cramLow → i.func ≠ some .cramHigh → i.func ≠ some .cramMap →
          t.stalls.csWrite = s.stalls.csWrite)
      ∧ ((∀ c f, i ≠ .dispatchMir c f) → t.stalls.macroDispatch = s.stalls.macroDispatch)
      ∧ (t.run = { s.run with halted := i.common.halt || s.run.singleStepMode || s.run.halted }
          ∨ t.run = { s.run with dieRequest := true, halted := true })

/-! ## Completion -/

/-- Every documented instruction completes its own effect, without dying, whenever no transaction is
outstanding, it asks for at most one memory operation, and no transfer finds the after-next slot filled; a
DISPATCH besides needs a legal code in the word it reads. All twenty-eight constructors. -/
def Obligations.LegalInstructionsComplete : Prop :=
  ∀ (i : Instr) (s : State), i.legal = true → s.client.busPending = .idle → s.pcs.afterNextPC = none →
    s.run.dieRequest = false →
    (i.common.streams = true → i.isDispatch = false ∧ ∀ d, i.dest = some d → d.starts = false) →
    (∀ c f, i = .dispatch c f →
      (s.files.amem.read (tableIndex c f (mValue c s) (afterFetch c s))).toNat / 2 ^ 16 % 8 < 6) →
    (∀ c f, i = .dispatchMir c f → (macroWord (afterFetch c s)).toNat / 2 ^ 16 % 8 < 6) →
    ∃ t, exec i s = .next t ∧ t.run.dieRequest = false

/-! ## The bus and SPY -/

/-- Step 1 (20_memory R115 to R118): a read in progress loads MD with the data cell, acknowledged or not; the
error flag follows the error cell; an acknowledge or an error releases the bus and ends the transaction, and
an acknowledged stream read loads `macroIR`. -/
def Obligations.BusServiceFollowsTheCells : Prop :=
  ∀ s : State,
    let owned := s.client.busPending ≠ .idle ∧ s.bus.busy = true ∧ s.bus.master = s.client.busID.val
    let reads := s.client.busPending = .dataRead ∨ s.client.busPending = .streamRead
    let t := serviceBus s
    (owned → reads → t.vm.md = s.bus.data) ∧ (¬ (owned ∧ reads) → t.vm.md = s.vm.md)
      ∧ (owned → t.client.busError = s.bus.error) ∧ (¬ owned → t.client.busError = false)
      ∧ (owned → (s.bus.ack = true ∨ s.bus.error = true) →
          t.client.busPending = .idle ∧ t.bus = { s.bus with busy := false })
      ∧ (¬ (owned ∧ (s.bus.ack = true ∨ s.bus.error = true)) →
          t.client.busPending = s.client.busPending ∧ t.bus = s.bus)
      ∧ (owned → s.client.busPending = .streamRead → s.bus.ack = true → t.stream.macroIR = s.bus.data)
      ∧ (¬ (owned ∧ s.client.busPending = .streamRead ∧ s.bus.ack = true) → t.stream.macroIR = s.stream.macroIR)

/-- A cycle that serves SPY runs the responder on the state steps 1 and 2 left, executes nothing and ends there
(20_memory R120; 47_spy R450, R468): the request is acknowledged, never with an error, and all that SPY has
no sub-register for, and a write of `PROCESSOR_MODE` does not act on (R465), is as steps 1 and 2 left it. -/
def Obligations.SpyCycleExecutesNothing : Prop :=
  ∀ s : State, spySelected (atStep3 s) = true →
    let u := atStep3 s
    let t := spyRespond u
    step s = .next t ∧ t.bus.ack = true ∧ t.bus.error = false
      ∧ ((u.bus.kind = .writeWord ∨ u.bus.kind = .writeByte) → t.bus.data = u.bus.data)
      ∧ t = { u with
          pcs := { u.pcs with ir := t.pcs.ir, irForced := t.pcs.irForced }
          store := { u.store with cram := t.store.cram, cramMap := t.store.cramMap }
          data := { u.data with multFT := t.data.multFT }
          modes := { u.modes with dpMode := t.modes.dpMode, rgMode := t.modes.rgMode,
                                  configReg := t.modes.configReg, procMode := t.modes.procMode }
          intr := { u.intr with pending := t.intr.pending, status := t.intr.status }
          stalls := { u.stalls with forceHold := t.stalls.forceHold }
          run := { u.run with halted := t.run.halted, singleStepMode := t.run.singleStepMode }
          spyUnit := t.spyUnit
          bus := { u.bus with ack := true, data := t.bus.data } }

/-- The read values of the SPY sub-registers (47_spy R452, R467), as numbers; an offset between 0x44 and 0xFC
reads 0. -/
def Obligations.SpyReadsFollowTheRegisterMap : Prop :=
  ∀ (s : State) (off : BitVec 8),
    let slot := (s.store.cramMap.read (s.spyUnit.spyCramAddr.toNat / 16)).toNat * 16 + s.spyUnit.spyCramAddr.toNat % 16
    (∀ p ∈ [(0x00, s.pcs.ir.toNat % 2 ^ 32), (0x04, s.pcs.ir.toNat / 2 ^ 32), (0x08, s.spyUnit.spyCramAddr.toNat),
        (0x0C, (s.store.cram.read slot).toNat % 2 ^ 32), (0x10, (s.store.cram.read slot).toNat / 2 ^ 32),
        (0x14, (s.store.cramMap.read (s.spyUnit.spyCramAddr.toNat / 16)).toNat), (0x18, s.spyUnit.spyTramAddr.toNat),
        (0x1C, (s.spyUnit.tram.read s.spyUnit.spyTramAddr.toNat).toNat), (0x20, s.spyUnit.spyHistAddr.toNat),
        (0x24, (s.spyUnit.history.read s.spyUnit.spyHistAddr.toNat).toNat), (0x28, s.spyUnit.historyPtr.toNat),
        (0x2C, s.data.multFT.toNat), (0x30, s.modes.dpMode.toNat), (0x34, s.modes.rgMode.toNat),
        (0x38, s.modes.configReg.toNat), (0x3C, s.modes.procMode.toNat), (0x40, 0)],
        off.toNat = p.1 → (spyRead (spyRegAt off) s).toNat = p.2)
      ∧ (0x44 ≤ off.toNat → spyRead (spyRegAt off) s = 0)

/-- The write actions of the SPY sub-registers other than `PROCESSOR_MODE` (47_spy R452, R455 to R467): each
changes its own register or memory word and nothing else. -/
def Obligations.SpyWritesFollowTheRegisterMap : Prop :=
  ∀ (s : State) (off : BitVec 8) (x : Word),
    let t := spyWrite (spyRegAt off) x s
    let slot := (s.store.cramMap.read (s.spyUnit.spyCramAddr.toNat / 16)).toNat * 16 + s.spyUnit.spyCramAddr.toNat % 16
    (off.toNat = 0x00 → t = { s with pcs := { s.pcs with ir := t.pcs.ir, irForced := true } }
        ∧ t.pcs.ir.toNat = s.pcs.ir.toNat / 2 ^ 32 * 2 ^ 32 + x.toNat)
      ∧ (off.toNat = 0x04 → t = { s with pcs := { s.pcs with ir := t.pcs.ir, irForced := true } }
        ∧ t.pcs.ir.toNat = x.toNat % 2 ^ 24 * 2 ^ 32 + s.pcs.ir.toNat % 2 ^ 32)
      ∧ (off.toNat = 0x08 → t = { s with spyUnit := { s.spyUnit with spyCramAddr := BitVec.ofNat 16 x.toNat } })
      ∧ (off.toNat = 0x0C → t = { s with store := { s.store with cram := t.store.cram } }
        ∧ ∀ n, (t.store.cram.read n).toNat =
            if n = slot then (s.store.cram.read n).toNat / 2 ^ 32 * 2 ^ 32 + x.toNat else (s.store.cram.read n).toNat)
      ∧ (off.toNat = 0x10 → t = { s with store := { s.store with cram := t.store.cram } }
        ∧ ∀ n, (t.store.cram.read n).toNat =
            if n = slot then x.toNat % 2 ^ 24 * 2 ^ 32 + (s.store.cram.read n).toNat % 2 ^ 32 else (s.store.cram.read n).toNat)
      ∧ (off.toNat = 0x14 → t = { s with store := { s.store with cramMap := t.store.cramMap } }
        ∧ ∀ n, t.store.cramMap.read n =
            if n = s.spyUnit.spyCramAddr.toNat / 16 then BitVec.ofNat 12 x.toNat else s.store.cramMap.read n)
      ∧ (off.toNat = 0x18 → t = { s with spyUnit := { s.spyUnit with spyTramAddr := BitVec.ofNat 12 x.toNat } })
      ∧ (off.toNat = 0x1C → t = { s with spyUnit := { s.spyUnit with tram := t.spyUnit.tram } }
        ∧ ∀ n, t.spyUnit.tram.read n = if n = s.spyUnit.spyTramAddr.toNat then x else s.spyUnit.tram.read n)
      ∧ (off.toNat = 0x20 → t = { s with spyUnit := { s.spyUnit with spyHistAddr := BitVec.ofNat 12 x.toNat } })
      ∧ (off.toNat = 0x24 → t = { s with spyUnit := { s.spyUnit with history := t.spyUnit.history } }
        ∧ ∀ n, t.spyUnit.history.read n =
            if n = s.spyUnit.spyHistAddr.toNat then BitVec.ofNat 16 x.toNat else s.spyUnit.history.read n)
      ∧ (off.toNat = 0x28 → t = { s with spyUnit := { s.spyUnit with historyPtr := BitVec.ofNat 12 x.toNat } })
      ∧ (off.toNat = 0x2C → t = { s with data := { s.data with multFT := x } })
      ∧ (off.toNat = 0x30 → t = { s with modes := { s.modes with dpMode := x } })
      ∧ (off.toNat = 0x34 → t = { s with modes := { s.modes with rgMode := x } })
      ∧ (off.toNat = 0x38 → t = { s with modes := { s.modes with configReg := x } })
      ∧ (0x40 ≤ off.toNat → t = s)

/-- The four access variants of a SPY request (47_spy R451): a word access ignores the lane; a byte read keeps
the byte in its lane; a byte write merges its lane into the register's value and stores the merged word
once. -/
def Obligations.SpyByteLanes : Prop :=
  ∀ (s : State) (off : Nat), spySelected s = true → s.bus.address.toNat = (0xF0 + s.client.busID.val) * 2 ^ 24 + off →
    let reg := spyRegAt (BitVec.ofNat 8 (off / 4 * 4))
    let t := spyRespond s
    let inLane := fun k => k / 8 = off % 4
    (s.bus.kind = .readWord → t = { s with bus := { s.bus with ack := true, data := spyRead reg s } })
      ∧ (s.bus.kind = .readByte → t = { s with bus := { s.bus with ack := true, data := t.bus.data } }
          ∧ ∀ k, k < 32 → t.bus.data.getLsbD k = (decide (inLane k) && (spyRead reg s).getLsbD k))
      ∧ (s.bus.kind = .writeWord → ∃ u, u = spyWrite reg s.bus.data s ∧ t = { u with bus := { u.bus with ack := true } })
      ∧ (s.bus.kind = .writeByte → ∃ x u, (∀ k, k < 32 → x.getLsbD k =
            if inLane k then s.bus.data.getLsbD k else (spyRead reg s).getLsbD k)
          ∧ u = spyWrite reg x s ∧ t = { u with bus := { u.bus with ack := true } })

/-- A write of the Processor-Mode register (47_spy R465): the register, and the edge-triggered effects in their
order. -/
def Obligations.ProcessorModeEdges : Prop :=
  ∀ (s : State) (x : Word),
    let t := spyWrite (spyRegAt 0x3C) x s
    let rises := fun k => s.modes.procMode.getLsbD k = false ∧ x.getLsbD k = true
    let falls := fun k => s.modes.procMode.getLsbD k = true ∧ x.getLsbD k = false
    t.modes.procMode = x ∧ t.stalls.forceHold = x.getLsbD 2 ∧ t.run.dieRequest = s.run.dieRequest
      ∧ (rises 3 → t.run.singleStepMode = false) ∧ (rises 0 → ¬ rises 3 → t.run.singleStepMode = true)
      ∧ (¬ rises 0 → ¬ rises 3 → t.run.singleStepMode = s.run.singleStepMode)
      ∧ (falls 3 → t.run.halted = true)
      ∧ (¬ falls 3 → (rises 0 ∨ rises 3) → s.run.dieRequest = false → t.run.halted = false)
      ∧ (¬ falls 3 → ((¬ rises 0 ∧ ¬ rises 3) ∨ s.run.dieRequest = true) → t.run.halted = s.run.halted)
      ∧ (rises 1 → t.intr.pending = 0 ∧ (∀ n, t.intr.status.read n = 0) ∧ t.intr.vector = s.intr.vector)
      ∧ (¬ rises 1 → t.intr = s.intr)
      ∧ t = { s with modes := { s.modes with procMode := x }, stalls := { s.stalls with forceHold := x.getLsbD 2 },
                     run := t.run, intr := t.intr }

/-! ## Whole-machine rules -/

/-- A die-request is terminal (60_exceptions R490; 47_spy R465): whatever the platform does but `initialize`,
the engine stays halted with its die-request. -/
def Obligations.DieRequestIsTerminal : Prop :=
  ∀ s : State, Dead s → NoInitialize s →
    ∃ t, step s = .next t ∧ Dead t ∧ t.pcs.nextPC = s.pcs.nextPC ∧ t.pcs.currentPC = s.pcs.currentPC
      ∧ t.files = s.files ∧ t.ustack = s.ustack

/-- Every step keeps the invariant of a state. -/
def Obligations.EveryStepKeepsTheInvariant : Prop :=
  ∀ s t : State, s.Inv → step s = .next t → t.Inv

/-- The state right after reset meets the invariant. -/
def Obligations.ResetMeetsTheInvariant : Prop := State.reset.Inv

/-- The values after `initialize` that the spec gives (10_state R60; 70_reset R531, R532): every register,
flag, pointer, counter and mode register 0, the optionals empty, no transaction, halted, no interrupt pending,
whatever the state before; the memory arrays and the bus cells are left as they are (R533). -/
def Obligations.InitializeGivesTheResetValues : Prop :=
  ∀ (s : State) (busID : Fin 2),
    let t := initEngine busID s
    t.pcs = { State.reset.pcs with ir := t.pcs.ir } ∧ t.stream = State.reset.stream ∧ t.intr = State.reset.intr
      ∧ t.data = State.reset.data ∧ t.modes = State.reset.modes ∧ t.stalls = State.reset.stalls
      ∧ t.run = { halted := true, singleStepMode := false, dieRequest := false }
      ∧ t.overlay = State.reset.overlay ∧ t.client = { busPending := .idle, busError := false, busID := busID }
      ∧ t.pcs.nextPC = 0 ∧ t.pcs.currentPC = 0 ∧ t.pcs.afterNextPC = none ∧ t.pcs.popjCountdown = none
      ∧ (t.stream.macroIR, t.stream.lc, t.vm.vma, t.vm.md, t.data.q, t.data.multIn, t.data.multFT) = (0, 0, 0, 0, 0, 0, 0)
      ∧ (t.vm.pageFault, t.vm.byteMode, t.vm.byteSel, t.vm.physAddr, t.vm.cachedGeneration) = (false, false, 0, 0, 0)
      ∧ (t.intr.pending, t.intr.vector) = (0, 0) ∧ (∀ n, t.intr.status.read n = 0)
      ∧ (t.ustack.ptr, t.data.pdlPointer, t.data.pdlIndex, t.data.dispatchConstant, t.spyUnit.historyPtr) = (0, 0, 0, 0, 0)
      ∧ (t.modes.dpMode, t.modes.rgMode, t.modes.configReg, t.modes.procMode) = (0, 0, 0, 0)
      ∧ (t.modes.statCounter, t.modes.auxStatCounter) = (0, 0)
      ∧ (t.spyUnit.spyCramAddr, t.spyUnit.spyTramAddr, t.spyUnit.spyHistAddr) = (0, 0, 0)
      ∧ t.files = s.files ∧ t.store = s.store ∧ t.vm.lv1 = s.vm.lv1 ∧ t.vm.lv2c = s.vm.lv2c ∧ t.vm.lv2a = s.vm.lv2a
      ∧ t.ustack.ring = s.ustack.ring ∧ t.spyUnit.history = s.spyUnit.history ∧ t.spyUnit.tram = s.spyUnit.tram ∧ t.bus = s.bus

/-- No step writes the macro-dispatch memory (10_state R30) or the open parameters (log 5). -/
def Obligations.NoStepWritesMidOrParameters : Prop :=
  ∀ s t : State, step s = .next t → t.store.mid = s.store.mid ∧ t.cfg = s.cfg

/-- Only SPY and `initialize` write the Configuration and Processor-Mode registers and the timing RAM (10_state
R47, R48; 47_spy R461). -/
def Obligations.OnlySpyWritesItsOwnRegisters : Prop :=
  ∀ s t : State, NoInitialize s → spySelected (atStep3 s) = false → step s = .next t →
    t.modes.configReg = s.modes.configReg ∧ t.modes.procMode = s.modes.procMode ∧ t.spyUnit.tram = s.spyUnit.tram
      ∧ t.spyUnit.spyCramAddr = s.spyUnit.spyCramAddr ∧ t.spyUnit.spyTramAddr = s.spyUnit.spyTramAddr
      ∧ t.spyUnit.spyHistAddr = s.spyUnit.spyHistAddr ∧ t.stalls.forceHold = s.stalls.forceHold

end
end

