-- ==== Sys2Proof/Laws/Cells.lean ====
section
/-! SUPPORT. The laws of an engine-owned memory: reading after writing, and the canonical form. -/

namespace Sys2Proof.Machine

variable {w : Nat}

@[simp] theorem Cells.read_nil (a : Nat) : Cells.read ([] : Cells w) a = Cells.unlisted w := rfl

@[simp] theorem Cells.read_cons (b : Nat) (v : BitVec w) (m : Cells w) (a : Nat) :
    Cells.read ((b, v) :: m) a = if b = a then v else Cells.read m a := rfl

theorem Cells.read_erase (m : Cells w) (a b : Nat) :
    (m.erase a).read b = if a = b then Cells.unlisted w else m.read b := by
  induction m with
  | nil => simp [Cells.erase]
  | cons c m ih =>
    obtain ⟨k, v⟩ := c
    simp only [Cells.erase] at ih
    by_cases hk : k = a
    · subst hk
      simp only [Cells.erase, ne_eq, not_true_eq_false, decide_false, Bool.false_eq_true,
        not_false_eq_true, List.filter_cons_of_neg, Cells.read_cons]
      rw [ih]
      split <;> rfl
    · simp only [Cells.erase, ne_eq, hk, not_false_eq_true, decide_true, List.filter_cons_of_pos,
        Cells.read_cons]
      rw [ih]
      by_cases hb : k = b
      · subst hb
        simp [Ne.symm hk]
      · simp [hb]

theorem Cells.read_insert (a : Nat) (v : BitVec w) (m : Cells w) (b : Nat)
    (h : ∀ c ∈ m, c.1 ≠ a) :
    (Cells.insert a v m).read b = if a = b then v else m.read b := by
  induction m with
  | nil => rfl
  | cons c m ih =>
    obtain ⟨k, x⟩ := c
    have hk : k ≠ a := h (k, x) (by simp)
    have ih' := ih (fun c hc => h c (by simp [hc]))
    simp only [Cells.insert]
    split
    · rfl
    · simp only [Cells.read_cons, ih']
      by_cases hb : k = b
      · subst hb
        simp [Ne.symm hk]
      · simp [hb]

theorem Cells.not_mem_erase (m : Cells w) (a : Nat) : ∀ c ∈ m.erase a, c.1 ≠ a := by
  intro c hc
  simp only [Cells.erase, List.mem_filter, decide_eq_true_eq] at hc
  exact hc.2

/-- The value written is read back, and every other address reads as before, in every memory. -/
@[simp] theorem Cells.read_write (m : Cells w) (a : Nat) (v : BitVec w) (b : Nat) :
    (m.write a v).read b = if a = b then v else m.read b := by
  unfold Cells.write
  split
  · next h => rw [Cells.read_erase, h]
  · rw [Cells.read_insert _ _ _ _ (Cells.not_mem_erase m a), Cells.read_erase]
    split <;> rfl

/-! ## The canonical form -/

/-- Every address listed is at least `lo`. -/
theorem Cells.wf_cons (bound a : Nat) (v : BitVec w) (m : Cells w) :
    Cells.wf bound ((a, v) :: m) = true ↔
      a < bound ∧ v ≠ Cells.unlisted w ∧ (∀ c ∈ m, a < c.1) ∧ Cells.wf bound m = true := by
  induction m generalizing a v with
  | nil => simp [Cells.wf]
  | cons c m ih =>
    obtain ⟨b, x⟩ := c
    have hrec : Cells.wf bound ((a, v) :: (b, x) :: m) =
        (decide (a < bound) && decide (v ≠ Cells.unlisted w) && decide (a < b)
          && Cells.wf bound ((b, x) :: m)) := rfl
    rw [hrec]
    simp only [Bool.and_eq_true, decide_eq_true_eq, List.mem_cons, forall_eq_or_imp]
    rw [ih b x]
    constructor
    · rintro ⟨⟨⟨h1, h2⟩, h3⟩, h4, h5, h6, h7⟩
      exact ⟨h1, h2, ⟨h3, fun c hc => Nat.lt_trans h3 (h6 c hc)⟩, h4, h5, h6, h7⟩
    · rintro ⟨h1, h2, ⟨h3, -⟩, h4⟩
      exact ⟨⟨⟨h1, h2⟩, h3⟩, h4⟩

theorem Cells.wf_erase (bound a : Nat) (m : Cells w) (h : Cells.wf bound m = true) :
    Cells.wf bound (m.erase a) = true := by
  induction m with
  | nil => rfl
  | cons c m ih =>
    obtain ⟨b, x⟩ := c
    obtain ⟨h1, h2, h3, h4⟩ := (Cells.wf_cons bound b x m).1 h
    by_cases hb : b = a
    · have : Cells.erase ((b, x) :: m) a = Cells.erase m a := by simp [Cells.erase, hb]
      rw [this]
      exact ih h4
    · have : Cells.erase ((b, x) :: m) a = (b, x) :: Cells.erase m a := by simp [Cells.erase, hb]
      rw [this, Cells.wf_cons]
      refine ⟨h1, h2, fun c hc => h3 c ?_, ih h4⟩
      exact (List.mem_filter.1 hc).1

theorem Cells.mem_insert (a : Nat) (v : BitVec w) (m : Cells w) (c : Nat × BitVec w)
    (hc : c ∈ Cells.insert a v m) : c = (a, v) ∨ c ∈ m := by
  induction m with
  | nil => simpa [Cells.insert] using hc
  | cons d m ih =>
    obtain ⟨b, x⟩ := d
    simp only [Cells.insert] at hc
    split at hc
    · simpa using hc
    · rcases List.mem_cons.1 hc with h | h
      · exact .inr (by simp [h])
      · rcases ih h with h | h
        · exact .inl h
        · exact .inr (by simp [h])

theorem Cells.wf_insert (bound a : Nat) (v : BitVec w) (m : Cells w) (h : Cells.wf bound m = true)
    (ha : a < bound) (hv : v ≠ Cells.unlisted w) (hm : ∀ c ∈ m, c.1 ≠ a) :
    Cells.wf bound (Cells.insert a v m) = true := by
  induction m with
  | nil => exact (Cells.wf_cons bound a v []).2 ⟨ha, hv, by simp, rfl⟩
  | cons d m ih =>
    obtain ⟨b, x⟩ := d
    have hw := (Cells.wf_cons bound b x m).1 h
    obtain ⟨h1, h2, h3, h4⟩ := hw
    simp only [Cells.insert]
    split
    · next hab =>
      refine (Cells.wf_cons bound a v _).2 ⟨ha, hv, ?_, h⟩
      intro c hc
      rcases List.mem_cons.1 hc with rfl | hc
      · exact hab
      · exact Nat.lt_trans hab (h3 c hc)
    · next hab =>
      have hne : b ≠ a := hm (b, x) (by simp)
      refine (Cells.wf_cons bound b x _).2 ⟨h1, h2, ?_, ih h4 (fun c hc => hm c (by simp [hc]))⟩
      intro c hc
      rcases Cells.mem_insert a v m c hc with rfl | hc
      · show b < a
        omega
      · exact h3 c hc

/-- A write keeps the canonical form. -/
theorem Cells.wf_write (bound a : Nat) (v : BitVec w) (m : Cells w) (h : Cells.wf bound m = true)
    (ha : a < bound) : Cells.wf bound (m.write a v) = true := by
  unfold Cells.write
  split
  · exact Cells.wf_erase bound a m h
  · next hv =>
    exact Cells.wf_insert bound a v _ (Cells.wf_erase bound a m h) ha hv (Cells.not_mem_erase m a)

theorem Cells.read_of_lt (bound a : Nat) (m : Cells w) (h : Cells.wf bound m = true)
    (ha : ∀ c ∈ m, a < c.1) : m.read a = Cells.unlisted w := by
  induction m with
  | nil => rfl
  | cons c m ih =>
    obtain ⟨b, x⟩ := c
    have hb : a < b := ha (b, x) (by simp)
    rw [Cells.read_cons, if_neg (by omega)]
    exact ih ((Cells.wf_cons bound b x m).1 h).2.2.2 (fun c hc => ha c (by simp [hc]))

/-- Equal memories are equal data: two canonical memories that read alike everywhere are one list. -/
theorem Cells.eq_of_read_eq (bound : Nat) (m n : Cells w) (hm : Cells.wf bound m = true)
    (hn : Cells.wf bound n = true) (h : ∀ a, m.read a = n.read a) : m = n := by
  induction m generalizing n with
  | nil =>
    cases n with
    | nil => rfl
    | cons c n =>
      obtain ⟨b, x⟩ := c
      have := h b
      simp only [Cells.read_nil, Cells.read_cons, if_true] at this
      exact absurd this.symm ((Cells.wf_cons bound b x n).1 hn).2.1
  | cons c m ih =>
    obtain ⟨a, v⟩ := c
    obtain ⟨-, hv, hlt, hmw⟩ := (Cells.wf_cons bound a v m).1 hm
    cases n with
    | nil =>
      have := h a
      simp only [Cells.read_nil, Cells.read_cons, if_true] at this
      exact absurd this hv
    | cons d n =>
      obtain ⟨b, x⟩ := d
      obtain ⟨-, hx, hlt', hnw⟩ := (Cells.wf_cons bound b x n).1 hn
      have hab : a = b := by
        rcases Nat.lt_trichotomy a b with hab | hab | hab
        · have h1 := h a
          rw [Cells.read_cons, if_pos rfl, Cells.read_cons, if_neg (by omega),
            Cells.read_of_lt bound a n hnw (fun c hc => Nat.lt_trans hab (hlt' c hc))] at h1
          exact absurd h1 hv
        · exact hab
        · have h1 := h b
          rw [Cells.read_cons, if_neg (by omega), Cells.read_cons, if_pos rfl,
            Cells.read_of_lt bound b m hmw (fun c hc => Nat.lt_trans hab (hlt c hc))] at h1
          exact absurd h1.symm hx
      subst hab
      have hvx : v = x := by simpa using h a
      subst hvx
      congr 1
      apply ih n hmw hnw
      intro k
      have hk := h k
      simp only [Cells.read_cons] at hk
      by_cases hak : a = k
      · subst hak
        rw [Cells.read_of_lt bound a m hmw hlt, Cells.read_of_lt bound a n hnw hlt']
      · simpa [hak] using hk

end Sys2Proof.Machine
end

