-- ==== Sys2Proof/Laws/Decode.lean ====
section
/-! SUPPORT. The laws of the encoding: what bit of a word a placed field gives, and that every operand code is
read back as it was written. -/

namespace Sys2Proof

/-- A bit of a placed field. -/
theorem getLsbD_place {n : Nat} (v : BitVec n) (lo i : Nat) :
    (place v lo).getLsbD i = (decide (i < 56) && decide (lo ≤ i) && v.getLsbD (i - lo)) := by
  simp only [place, BitVec.getLsbD_shiftLeft, BitVec.getLsbD_setWidth]
  by_cases h : i < 56 <;> by_cases h' : lo ≤ i
  · simp [h, h', show i - lo < 56 by omega, show ¬ i < lo by omega]
  · simp [h', show i < lo by omega]
  all_goals simp [h]

/-- A bit of a placed one-bit field. -/
theorem getLsbD_placeBit (b : Bool) (pos i : Nat) :
    (placeBit b pos).getLsbD i = (decide (i < 56) && decide (pos = i) && b) := by
  rw [placeBit, getLsbD_place, BitVec.getLsbD_ofBool]
  by_cases h : pos = i
  · simp [h]
  · by_cases h' : pos ≤ i
    · have : i - pos ≠ 0 := by omega
      simp [h, h', this]
    · simp [h, h']

/-! ## Operand codes -/

theorem MSource.ofCode_code (x : MSource) (h : x.wellFormed = true) : MSource.ofCode x.code = x := by
  cases x with
  | m n => revert n; decide
  | undefined c => revert c; decide
  | _ => rfl

theorem MSource.wellFormed_ofCode (code : BitVec 7) : (MSource.ofCode code).wellFormed = true := by
  revert code; decide

theorem MSource.code_ofCode (code : BitVec 7) : (MSource.ofCode code).code = code := by
  revert code; decide

theorem FuncDest.ofCode_code (x : FuncDest) (h : x.wellFormed = true) : FuncDest.ofCode x.code = x := by
  cases x with
  | undefined c => revert c; decide
  | _ => rfl

theorem FuncDest.wellFormed_ofCode (code : BitVec 6) : (FuncDest.ofCode code).wellFormed = true := by
  revert code; decide

theorem FuncDest.code_ofCode (code : BitVec 6) : (FuncDest.ofCode code).code = code := by
  revert code; decide

theorem OutSel.ofCode_code (x : OutSel) : OutSel.ofCode x.code = x := by
  cases x <;> rfl

theorem OutSel.code_ofCode (code : BitVec 3) : (OutSel.ofCode code).code = code := by
  revert code; decide

theorem QCtl.ofCode_code (x : QCtl) : QCtl.ofCode x.code = x := by
  cases x <;> rfl

theorem QCtl.code_ofCode (code : BitVec 2) : (QCtl.ofCode code).code = code := by
  revert code; decide

theorem Condition.ofCode_code (x : Condition) (h : x.wellFormed = true) : Condition.ofCode x.code = x := by
  cases x with
  | undefined c => revert c; decide
  | _ => rfl

theorem Condition.wellFormed_ofCode (code : BitVec 5) : (Condition.ofCode code).wellFormed = true := by
  revert code; decide

theorem Condition.code_ofCode (code : BitVec 5) : (Condition.ofCode code).code = code := by
  revert code; decide

theorem JumpTest.ofCode_code (x : JumpTest) (h : x.wellFormed = true) :
    JumpTest.ofCode x.testBit x.code = x := by
  cases x with
  | cond c => simp [JumpTest.ofCode, JumpTest.testBit, JumpTest.code, Condition.ofCode_code c h]
  | bit rot => rfl

theorem JumpTest.wellFormed_ofCode (test : Bool) (code : BitVec 5) :
    (JumpTest.ofCode test code).wellFormed = true := by
  cases test
  · rfl
  · exact Condition.wellFormed_ofCode code

@[simp] theorem JumpTest.testBit_ofCode (test : Bool) (code : BitVec 5) :
    (JumpTest.ofCode test code).testBit = test := by
  cases test <;> rfl

theorem JumpTest.code_ofCode (test : Bool) (code : BitVec 5) : (JumpTest.ofCode test code).code = code := by
  cases test
  · rfl
  · exact Condition.code_ofCode code

theorem Dest.ofCode_code (x : Dest) (h : x.wellFormed = true) : Dest.ofCode x.code = x := by
  cases x with
  | a addr =>
    have h1 : (Dest.a addr).code.getLsbD 12 = true := by simp [Dest.code]
    have h2 : (Dest.a addr).code.extractLsb' 0 12 = addr := by
      apply BitVec.eq_of_toNat_eq
      have : addr.toNat < 4096 := addr.isLt
      simp only [Dest.code, BitVec.extractLsb'_toNat, BitVec.toNat_or, BitVec.toNat_setWidth,
        BitVec.toNat_ofNat, Nat.shiftRight_zero]
      rw [Nat.mod_eq_of_lt (by omega : addr.toNat < 2 ^ 13)]
      have h3 := Nat.two_pow_add_eq_or_of_lt (i := 12) this 1
      simp only [Nat.mul_one] at h3
      rw [show (0x1000 % 2 ^ 13 : Nat) = 2 ^ 12 from rfl, ← h3]
      omega
    simp [Dest.ofCode, h1, h2]
  | func f m =>
    have hm : m.toNat < 64 := m.isLt
    have hf : f.code.toNat < 64 := f.code.isLt
    have hcode : (Dest.func f m).code.toNat = 64 * f.code.toNat + m.toNat := by
      simp only [Dest.code, BitVec.toNat_or, BitVec.toNat_setWidth, BitVec.toNat_shiftLeft]
      rw [Nat.mod_eq_of_lt (by omega : m.toNat < 2 ^ 13), Nat.mod_eq_of_lt (by omega : f.code.toNat < 2 ^ 13),
        Nat.shiftLeft_eq, Nat.mod_eq_of_lt (by omega : f.code.toNat * 2 ^ 6 < 2 ^ 13), Nat.mul_comm]
      exact (Nat.two_pow_add_eq_or_of_lt (i := 6) hm f.code.toNat).symm
    have h1 : (Dest.func f m).code.getLsbD 12 = false := by
      rw [BitVec.getLsbD, hcode, Nat.testBit_lt_two_pow]; omega
    have h2 : (Dest.func f m).code.extractLsb' 0 6 = m := by
      apply BitVec.eq_of_toNat_eq
      rw [BitVec.extractLsb'_toNat, hcode]; omega
    have h3 : (Dest.func f m).code.extractLsb' 6 6 = f.code := by
      apply BitVec.eq_of_toNat_eq
      rw [BitVec.extractLsb'_toNat, hcode, Nat.shiftRight_eq_div_pow]; omega
    simp only [Dest.ofCode, h1, h2, h3, FuncDest.ofCode_code f h, Bool.false_eq_true, if_false]

theorem Dest.code_ofCode (code : BitVec 13) : (Dest.ofCode code).code = code := by
  apply BitVec.eq_of_getLsbD_eq
  intro k hk
  unfold Dest.ofCode
  split
  · next h =>
    simp only [Dest.code, BitVec.getLsbD_or, BitVec.getLsbD_setWidth, BitVec.getLsbD_extractLsb']
    by_cases h12 : k = 12
    · subst h12; simp [h]
    · have hbit : (0x1000#13).getLsbD k = false := by
        have : ∀ k : Fin 13, k.val ≠ 12 → (0x1000#13).getLsbD k.val = false := by decide
        exact this ⟨k, hk⟩ h12
      rw [hbit]
      simp [hk, show k < 12 by omega]
  · next h =>
    simp only [Dest.code, FuncDest.code_ofCode, BitVec.getLsbD_or, BitVec.getLsbD_shiftLeft,
      BitVec.getLsbD_setWidth, BitVec.getLsbD_extractLsb']
    by_cases h6 : k < 6
    · simp [h6, hk]
    · by_cases h12 : k = 12
      · subst h12; simpa using h
      · simp [h6, hk, show k - 6 < 6 by omega, show k - 6 < 13 by omega, show 6 + (k - 6) = k by omega]

theorem Dest.wellFormed_ofCode (code : BitVec 13) : (Dest.ofCode code).wellFormed = true := by
  unfold Dest.ofCode
  split
  · rfl
  · exact FuncDest.wellFormed_ofCode _

end Sys2Proof
end

