-- ==== Sys2Proof/Laws/State.lean ====
section
/-! SUPPORT. What each operation on a state leaves unchanged, group by group, and what it does to the fields
of the groups it touches: so that no later proof unfolds a record update. -/

namespace Sys2Proof.Machine

/-! ## Frames -/

@[simp] theorem raiseDie_frame (s : State) :
    (raiseDie s).files = s.files ∧ (raiseDie s).pcs = s.pcs ∧ (raiseDie s).store = s.store ∧
    (raiseDie s).stream = s.stream ∧ (raiseDie s).vm = s.vm ∧ (raiseDie s).intr = s.intr ∧
    (raiseDie s).ustack = s.ustack ∧ (raiseDie s).data = s.data ∧ (raiseDie s).modes = s.modes ∧
    (raiseDie s).stalls = s.stalls ∧ (raiseDie s).overlay = s.overlay ∧
    (raiseDie s).client = s.client ∧ (raiseDie s).spyUnit = s.spyUnit ∧ (raiseDie s).bus = s.bus ∧
    (raiseDie s).cfg = s.cfg ∧ (raiseDie s).requests = s.requests ∧ (raiseDie s).inputs = s.inputs :=
  ⟨rfl, rfl, rfl, rfl, rfl, rfl, rfl, rfl, rfl, rfl, rfl, rfl, rfl, rfl, rfl, rfl, rfl⟩

@[simp] theorem writeA_frame (a : BitVec 12) (v : Word) (s : State) :
    (writeA a v s).pcs = s.pcs ∧ (writeA a v s).store = s.store ∧ (writeA a v s).stream = s.stream ∧
    (writeA a v s).vm = s.vm ∧ (writeA a v s).intr = s.intr ∧ (writeA a v s).ustack = s.ustack ∧
    (writeA a v s).data = s.data ∧ (writeA a v s).modes = s.modes ∧ (writeA a v s).stalls = s.stalls ∧
    (writeA a v s).run = s.run ∧ (writeA a v s).overlay = s.overlay ∧
    (writeA a v s).client = s.client ∧ (writeA a v s).spyUnit = s.spyUnit ∧ (writeA a v s).bus = s.bus ∧
    (writeA a v s).cfg = s.cfg ∧ (writeA a v s).requests = s.requests ∧
    (writeA a v s).inputs = s.inputs :=
  ⟨rfl, rfl, rfl, rfl, rfl, rfl, rfl, rfl, rfl, rfl, rfl, rfl, rfl, rfl, rfl, rfl, rfl⟩

@[simp] theorem writeM_frame (a : BitVec 12) (v : Word) (s : State) :
    (writeM a v s).pcs = s.pcs ∧ (writeM a v s).store = s.store ∧ (writeM a v s).stream = s.stream ∧
    (writeM a v s).vm = s.vm ∧ (writeM a v s).intr = s.intr ∧ (writeM a v s).ustack = s.ustack ∧
    (writeM a v s).data = s.data ∧ (writeM a v s).modes = s.modes ∧ (writeM a v s).stalls = s.stalls ∧
    (writeM a v s).run = s.run ∧ (writeM a v s).overlay = s.overlay ∧
    (writeM a v s).client = s.client ∧ (writeM a v s).spyUnit = s.spyUnit ∧ (writeM a v s).bus = s.bus ∧
    (writeM a v s).cfg = s.cfg ∧ (writeM a v s).requests = s.requests ∧
    (writeM a v s).inputs = s.inputs :=
  ⟨rfl, rfl, rfl, rfl, rfl, rfl, rfl, rfl, rfl, rfl, rfl, rfl, rfl, rfl, rfl, rfl, rfl⟩

@[simp] theorem writeMReg_frame (m : BitVec 6) (v : Word) (s : State) :
    (writeMReg m v s).pcs = s.pcs ∧ (writeMReg m v s).store = s.store ∧
    (writeMReg m v s).stream = s.stream ∧ (writeMReg m v s).vm = s.vm ∧
    (writeMReg m v s).intr = s.intr ∧ (writeMReg m v s).ustack = s.ustack ∧
    (writeMReg m v s).data = s.data ∧ (writeMReg m v s).modes = s.modes ∧
    (writeMReg m v s).stalls = s.stalls ∧ (writeMReg m v s).run = s.run ∧
    (writeMReg m v s).overlay = s.overlay ∧ (writeMReg m v s).client = s.client ∧
    (writeMReg m v s).spyUnit = s.spyUnit ∧ (writeMReg m v s).bus = s.bus ∧ (writeMReg m v s).cfg = s.cfg ∧
    (writeMReg m v s).requests = s.requests ∧ (writeMReg m v s).inputs = s.inputs := by
  unfold writeMReg; split <;> simp

@[simp] theorem writeCramLow_frame (u : MicroAddr) (v : Word) (s : State) :
    (writeCramLow u v s).files = s.files ∧ (writeCramLow u v s).pcs = s.pcs ∧
    (writeCramLow u v s).stream = s.stream ∧ (writeCramLow u v s).vm = s.vm ∧
    (writeCramLow u v s).intr = s.intr ∧ (writeCramLow u v s).ustack = s.ustack ∧
    (writeCramLow u v s).data = s.data ∧ (writeCramLow u v s).modes = s.modes ∧
    (writeCramLow u v s).stalls = s.stalls ∧ (writeCramLow u v s).run = s.run ∧
    (writeCramLow u v s).overlay = s.overlay ∧ (writeCramLow u v s).client = s.client ∧
    (writeCramLow u v s).spyUnit = s.spyUnit ∧ (writeCramLow u v s).bus = s.bus ∧
    (writeCramLow u v s).cfg = s.cfg ∧ (writeCramLow u v s).requests = s.requests ∧
    (writeCramLow u v s).inputs = s.inputs :=
  ⟨rfl, rfl, rfl, rfl, rfl, rfl, rfl, rfl, rfl, rfl, rfl, rfl, rfl, rfl, rfl, rfl, rfl⟩

@[simp] theorem writeCramHigh_frame (u : MicroAddr) (v : BitVec 24) (s : State) :
    (writeCramHigh u v s).files = s.files ∧ (writeCramHigh u v s).pcs = s.pcs ∧
    (writeCramHigh u v s).stream = s.stream ∧ (writeCramHigh u v s).vm = s.vm ∧
    (writeCramHigh u v s).intr = s.intr ∧ (writeCramHigh u v s).ustack = s.ustack ∧
    (writeCramHigh u v s).data = s.data ∧ (writeCramHigh u v s).modes = s.modes ∧
    (writeCramHigh u v s).stalls = s.stalls ∧ (writeCramHigh u v s).run = s.run ∧
    (writeCramHigh u v s).overlay = s.overlay ∧ (writeCramHigh u v s).client = s.client ∧
    (writeCramHigh u v s).spyUnit = s.spyUnit ∧ (writeCramHigh u v s).bus = s.bus ∧
    (writeCramHigh u v s).cfg = s.cfg ∧ (writeCramHigh u v s).requests = s.requests ∧
    (writeCramHigh u v s).inputs = s.inputs :=
  ⟨rfl, rfl, rfl, rfl, rfl, rfl, rfl, rfl, rfl, rfl, rfl, rfl, rfl, rfl, rfl, rfl, rfl⟩

@[simp] theorem writeCramMap_frame (u : MicroAddr) (v : BitVec 12) (s : State) :
    (writeCramMap u v s).files = s.files ∧ (writeCramMap u v s).pcs = s.pcs ∧
    (writeCramMap u v s).stream = s.stream ∧ (writeCramMap u v s).vm = s.vm ∧
    (writeCramMap u v s).intr = s.intr ∧ (writeCramMap u v s).ustack = s.ustack ∧
    (writeCramMap u v s).data = s.data ∧ (writeCramMap u v s).modes = s.modes ∧
    (writeCramMap u v s).stalls = s.stalls ∧ (writeCramMap u v s).run = s.run ∧
    (writeCramMap u v s).overlay = s.overlay ∧ (writeCramMap u v s).client = s.client ∧
    (writeCramMap u v s).spyUnit = s.spyUnit ∧ (writeCramMap u v s).bus = s.bus ∧
    (writeCramMap u v s).cfg = s.cfg ∧ (writeCramMap u v s).requests = s.requests ∧
    (writeCramMap u v s).inputs = s.inputs :=
  ⟨rfl, rfl, rfl, rfl, rfl, rfl, rfl, rfl, rfl, rfl, rfl, rfl, rfl, rfl, rfl, rfl, rfl⟩

@[simp] theorem push_frame (addr : MicroAddr) (s : State) :
    (push addr s).files = s.files ∧ (push addr s).pcs = s.pcs ∧ (push addr s).store = s.store ∧
    (push addr s).stream = s.stream ∧ (push addr s).vm = s.vm ∧ (push addr s).intr = s.intr ∧
    (push addr s).data = s.data ∧ (push addr s).modes = s.modes ∧ (push addr s).stalls = s.stalls ∧
    (push addr s).run = s.run ∧ (push addr s).overlay = s.overlay ∧ (push addr s).client = s.client ∧
    (push addr s).spyUnit = s.spyUnit ∧ (push addr s).bus = s.bus ∧ (push addr s).cfg = s.cfg ∧
    (push addr s).requests = s.requests ∧ (push addr s).inputs = s.inputs :=
  ⟨rfl, rfl, rfl, rfl, rfl, rfl, rfl, rfl, rfl, rfl, rfl, rfl, rfl, rfl, rfl, rfl, rfl⟩

@[simp] theorem dropTop_frame (s : State) :
    (dropTop s).files = s.files ∧ (dropTop s).pcs = s.pcs ∧ (dropTop s).store = s.store ∧
    (dropTop s).stream = s.stream ∧ (dropTop s).vm = s.vm ∧ (dropTop s).intr = s.intr ∧
    (dropTop s).data = s.data ∧ (dropTop s).modes = s.modes ∧ (dropTop s).stalls = s.stalls ∧
    (dropTop s).run = s.run ∧ (dropTop s).overlay = s.overlay ∧ (dropTop s).client = s.client ∧
    (dropTop s).spyUnit = s.spyUnit ∧ (dropTop s).bus = s.bus ∧ (dropTop s).cfg = s.cfg ∧
    (dropTop s).requests = s.requests ∧ (dropTop s).inputs = s.inputs :=
  ⟨rfl, rfl, rfl, rfl, rfl, rfl, rfl, rfl, rfl, rfl, rfl, rfl, rfl, rfl, rfl, rfl, rfl⟩

@[simp] theorem resolve_frame (vma : Word) (kind : AccessKind) (force : Bool) (s : State) :
    (resolve vma kind force s).files = s.files ∧ (resolve vma kind force s).pcs = s.pcs ∧
    (resolve vma kind force s).store = s.store ∧ (resolve vma kind force s).stream = s.stream ∧
    (resolve vma kind force s).intr = s.intr ∧ (resolve vma kind force s).ustack = s.ustack ∧
    (resolve vma kind force s).data = s.data ∧ (resolve vma kind force s).modes = s.modes ∧
    (resolve vma kind force s).stalls = s.stalls ∧ (resolve vma kind force s).run = s.run ∧
    (resolve vma kind force s).overlay = s.overlay ∧ (resolve vma kind force s).client = s.client ∧
    (resolve vma kind force s).spyUnit = s.spyUnit ∧ (resolve vma kind force s).bus = s.bus ∧
    (resolve vma kind force s).cfg = s.cfg ∧ (resolve vma kind force s).requests = s.requests ∧
    (resolve vma kind force s).inputs = s.inputs := by
  unfold resolve; split <;> simp

@[simp] theorem issue_frame (kind : AccessKind) (pend : BusPending) (s : State) :
    (issue kind pend s).files = s.files ∧ (issue kind pend s).pcs = s.pcs ∧
    (issue kind pend s).store = s.store ∧ (issue kind pend s).stream = s.stream ∧
    (issue kind pend s).vm = s.vm ∧ (issue kind pend s).intr = s.intr ∧
    (issue kind pend s).ustack = s.ustack ∧ (issue kind pend s).data = s.data ∧
    (issue kind pend s).modes = s.modes ∧ (issue kind pend s).stalls = s.stalls ∧
    (issue kind pend s).run = s.run ∧ (issue kind pend s).overlay = s.overlay ∧
    (issue kind pend s).spyUnit = s.spyUnit ∧ (issue kind pend s).bus = s.bus ∧
    (issue kind pend s).cfg = s.cfg ∧ (issue kind pend s).inputs = s.inputs :=
  ⟨rfl, rfl, rfl, rfl, rfl, rfl, rfl, rfl, rfl, rfl, rfl, rfl, rfl, rfl, rfl, rfl⟩

@[simp] theorem serviceBus_frame (s : State) :
    (serviceBus s).files = s.files ∧ (serviceBus s).pcs = s.pcs ∧ (serviceBus s).store = s.store ∧
    (serviceBus s).intr = s.intr ∧ (serviceBus s).ustack = s.ustack ∧ (serviceBus s).data = s.data ∧
    (serviceBus s).modes = s.modes ∧ (serviceBus s).stalls = s.stalls ∧ (serviceBus s).run = s.run ∧
    (serviceBus s).overlay = s.overlay ∧ (serviceBus s).spyUnit = s.spyUnit ∧ (serviceBus s).cfg = s.cfg ∧
    (serviceBus s).requests = s.requests ∧ (serviceBus s).inputs = s.inputs := by
  unfold serviceBus; split <;> simp

@[simp] theorem recomputeVector_frame (s : State) :
    (recomputeVector s).files = s.files ∧ (recomputeVector s).pcs = s.pcs ∧
    (recomputeVector s).store = s.store ∧ (recomputeVector s).stream = s.stream ∧
    (recomputeVector s).vm = s.vm ∧ (recomputeVector s).ustack = s.ustack ∧
    (recomputeVector s).data = s.data ∧ (recomputeVector s).modes = s.modes ∧
    (recomputeVector s).stalls = s.stalls ∧ (recomputeVector s).run = s.run ∧
    (recomputeVector s).overlay = s.overlay ∧ (recomputeVector s).client = s.client ∧
    (recomputeVector s).spyUnit = s.spyUnit ∧ (recomputeVector s).bus = s.bus ∧
    (recomputeVector s).cfg = s.cfg ∧ (recomputeVector s).requests = s.requests ∧
    (recomputeVector s).inputs = s.inputs := by
  unfold recomputeVector; split <;> simp

@[simp] theorem markPending_frame (v : BitVec 8) (s : State) :
    (markPending v s).files = s.files ∧ (markPending v s).pcs = s.pcs ∧
    (markPending v s).store = s.store ∧ (markPending v s).stream = s.stream ∧
    (markPending v s).vm = s.vm ∧ (markPending v s).ustack = s.ustack ∧
    (markPending v s).data = s.data ∧ (markPending v s).modes = s.modes ∧
    (markPending v s).stalls = s.stalls ∧ (markPending v s).run = s.run ∧
    (markPending v s).overlay = s.overlay ∧ (markPending v s).client = s.client ∧
    (markPending v s).spyUnit = s.spyUnit ∧ (markPending v s).bus = s.bus ∧ (markPending v s).cfg = s.cfg ∧
    (markPending v s).requests = s.requests ∧ (markPending v s).inputs = s.inputs :=
  ⟨rfl, rfl, rfl, rfl, rfl, rfl, rfl, rfl, rfl, rfl, rfl, rfl, rfl, rfl, rfl, rfl, rfl⟩

@[simp] theorem unmarkPending_frame (v : BitVec 8) (s : State) :
    (unmarkPending v s).files = s.files ∧ (unmarkPending v s).pcs = s.pcs ∧
    (unmarkPending v s).store = s.store ∧ (unmarkPending v s).stream = s.stream ∧
    (unmarkPending v s).vm = s.vm ∧ (unmarkPending v s).ustack = s.ustack ∧
    (unmarkPending v s).data = s.data ∧ (unmarkPending v s).modes = s.modes ∧
    (unmarkPending v s).stalls = s.stalls ∧ (unmarkPending v s).run = s.run ∧
    (unmarkPending v s).overlay = s.overlay ∧ (unmarkPending v s).client = s.client ∧
    (unmarkPending v s).spyUnit = s.spyUnit ∧ (unmarkPending v s).bus = s.bus ∧
    (unmarkPending v s).cfg = s.cfg ∧ (unmarkPending v s).requests = s.requests ∧
    (unmarkPending v s).inputs = s.inputs :=
  ⟨rfl, rfl, rfl, rfl, rfl, rfl, rfl, rfl, rfl, rfl, rfl, rfl, rfl, rfl, rfl, rfl, rfl⟩

@[simp] theorem intWrite_frame (v : BitVec 8) (d : Bool) (s : State) :
    (intWrite v d s).files = s.files ∧ (intWrite v d s).pcs = s.pcs ∧
    (intWrite v d s).store = s.store ∧ (intWrite v d s).stream = s.stream ∧
    (intWrite v d s).vm = s.vm ∧ (intWrite v d s).ustack = s.ustack ∧ (intWrite v d s).data = s.data ∧
    (intWrite v d s).modes = s.modes ∧ (intWrite v d s).stalls = s.stalls ∧
    (intWrite v d s).run = s.run ∧ (intWrite v d s).overlay = s.overlay ∧
    (intWrite v d s).client = s.client ∧ (intWrite v d s).spyUnit = s.spyUnit ∧
    (intWrite v d s).bus = s.bus ∧ (intWrite v d s).cfg = s.cfg ∧
    (intWrite v d s).requests = s.requests ∧ (intWrite v d s).inputs = s.inputs := by
  unfold intWrite; repeat' split
  all_goals simp

@[simp] theorem intClear_frame (s : State) :
    (intClear s).files = s.files ∧ (intClear s).pcs = s.pcs ∧ (intClear s).store = s.store ∧
    (intClear s).stream = s.stream ∧ (intClear s).vm = s.vm ∧ (intClear s).ustack = s.ustack ∧
    (intClear s).data = s.data ∧ (intClear s).modes = s.modes ∧ (intClear s).stalls = s.stalls ∧
    (intClear s).run = s.run ∧ (intClear s).overlay = s.overlay ∧ (intClear s).client = s.client ∧
    (intClear s).spyUnit = s.spyUnit ∧ (intClear s).bus = s.bus ∧ (intClear s).cfg = s.cfg ∧
    (intClear s).requests = s.requests ∧ (intClear s).inputs = s.inputs := by
  unfold intClear; split <;> simp

@[simp] theorem intResetCounter_frame (s : State) :
    (intResetCounter s).files = s.files ∧ (intResetCounter s).pcs = s.pcs ∧
    (intResetCounter s).store = s.store ∧ (intResetCounter s).stream = s.stream ∧
    (intResetCounter s).vm = s.vm ∧ (intResetCounter s).ustack = s.ustack ∧
    (intResetCounter s).data = s.data ∧ (intResetCounter s).modes = s.modes ∧
    (intResetCounter s).stalls = s.stalls ∧ (intResetCounter s).run = s.run ∧
    (intResetCounter s).overlay = s.overlay ∧ (intResetCounter s).client = s.client ∧
    (intResetCounter s).spyUnit = s.spyUnit ∧ (intResetCounter s).bus = s.bus ∧
    (intResetCounter s).cfg = s.cfg ∧ (intResetCounter s).requests = s.requests ∧
    (intResetCounter s).inputs = s.inputs :=
  ⟨rfl, rfl, rfl, rfl, rfl, rfl, rfl, rfl, rfl, rfl, rfl, rfl, rfl, rfl, rfl, rfl, rfl⟩

@[simp] theorem interruptWindow_frame (s : State) :
    (interruptWindow s).files = s.files ∧ (interruptWindow s).pcs = s.pcs ∧
    (interruptWindow s).store = s.store ∧ (interruptWindow s).stream = s.stream ∧
    (interruptWindow s).vm = s.vm ∧ (interruptWindow s).ustack = s.ustack ∧
    (interruptWindow s).data = s.data ∧ (interruptWindow s).modes = s.modes ∧
    (interruptWindow s).stalls = s.stalls ∧ (interruptWindow s).run = s.run ∧
    (interruptWindow s).overlay = s.overlay ∧ (interruptWindow s).client = s.client ∧
    (interruptWindow s).spyUnit = s.spyUnit ∧ (interruptWindow s).cfg = s.cfg ∧
    (interruptWindow s).requests = s.requests ∧ (interruptWindow s).inputs = s.inputs := by
  unfold interruptWindow; repeat' split
  all_goals simp

@[simp] theorem writeLv1_frame (v : BitVec 10) (s : State) :
    (writeLv1 v s).files = s.files ∧ (writeLv1 v s).pcs = s.pcs ∧ (writeLv1 v s).store = s.store ∧
    (writeLv1 v s).stream = s.stream ∧ (writeLv1 v s).intr = s.intr ∧
    (writeLv1 v s).ustack = s.ustack ∧ (writeLv1 v s).data = s.data ∧ (writeLv1 v s).modes = s.modes ∧
    (writeLv1 v s).stalls = s.stalls ∧ (writeLv1 v s).run = s.run ∧
    (writeLv1 v s).overlay = s.overlay ∧ (writeLv1 v s).client = s.client ∧
    (writeLv1 v s).spyUnit = s.spyUnit ∧ (writeLv1 v s).bus = s.bus ∧ (writeLv1 v s).cfg = s.cfg ∧
    (writeLv1 v s).requests = s.requests ∧ (writeLv1 v s).inputs = s.inputs :=
  ⟨rfl, rfl, rfl, rfl, rfl, rfl, rfl, rfl, rfl, rfl, rfl, rfl, rfl, rfl, rfl, rfl, rfl⟩

@[simp] theorem writeLv2Control_frame (v : BitVec 16) (s : State) :
    (writeLv2Control v s).files = s.files ∧ (writeLv2Control v s).pcs = s.pcs ∧
    (writeLv2Control v s).store = s.store ∧ (writeLv2Control v s).stream = s.stream ∧
    (writeLv2Control v s).intr = s.intr ∧ (writeLv2Control v s).ustack = s.ustack ∧
    (writeLv2Control v s).data = s.data ∧ (writeLv2Control v s).modes = s.modes ∧
    (writeLv2Control v s).stalls = s.stalls ∧ (writeLv2Control v s).run = s.run ∧
    (writeLv2Control v s).overlay = s.overlay ∧ (writeLv2Control v s).client = s.client ∧
    (writeLv2Control v s).spyUnit = s.spyUnit ∧ (writeLv2Control v s).bus = s.bus ∧
    (writeLv2Control v s).cfg = s.cfg ∧ (writeLv2Control v s).requests = s.requests ∧
    (writeLv2Control v s).inputs = s.inputs :=
  ⟨rfl, rfl, rfl, rfl, rfl, rfl, rfl, rfl, rfl, rfl, rfl, rfl, rfl, rfl, rfl, rfl, rfl⟩

@[simp] theorem writeLv2Address_frame (v : BitVec 24) (s : State) :
    (writeLv2Address v s).files = s.files ∧ (writeLv2Address v s).pcs = s.pcs ∧
    (writeLv2Address v s).store = s.store ∧ (writeLv2Address v s).stream = s.stream ∧
    (writeLv2Address v s).intr = s.intr ∧ (writeLv2Address v s).ustack = s.ustack ∧
    (writeLv2Address v s).data = s.data ∧ (writeLv2Address v s).modes = s.modes ∧
    (writeLv2Address v s).stalls = s.stalls ∧ (writeLv2Address v s).run = s.run ∧
    (writeLv2Address v s).overlay = s.overlay ∧ (writeLv2Address v s).client = s.client ∧
    (writeLv2Address v s).spyUnit = s.spyUnit ∧ (writeLv2Address v s).bus = s.bus ∧
    (writeLv2Address v s).cfg = s.cfg ∧ (writeLv2Address v s).requests = s.requests ∧
    (writeLv2Address v s).inputs = s.inputs :=
  ⟨rfl, rfl, rfl, rfl, rfl, rfl, rfl, rfl, rfl, rfl, rfl, rfl, rfl, rfl, rfl, rfl, rfl⟩

@[simp] theorem armCsWrite_frame (s : State) :
    (armCsWrite s).files = s.files ∧ (armCsWrite s).pcs = s.pcs ∧ (armCsWrite s).store = s.store ∧
    (armCsWrite s).stream = s.stream ∧ (armCsWrite s).vm = s.vm ∧ (armCsWrite s).intr = s.intr ∧
    (armCsWrite s).ustack = s.ustack ∧ (armCsWrite s).data = s.data ∧ (armCsWrite s).modes = s.modes ∧
    (armCsWrite s).run = s.run ∧ (armCsWrite s).overlay = s.overlay ∧
    (armCsWrite s).client = s.client ∧ (armCsWrite s).spyUnit = s.spyUnit ∧ (armCsWrite s).bus = s.bus ∧
    (armCsWrite s).cfg = s.cfg ∧ (armCsWrite s).requests = s.requests ∧
    (armCsWrite s).inputs = s.inputs :=
  ⟨rfl, rfl, rfl, rfl, rfl, rfl, rfl, rfl, rfl, rfl, rfl, rfl, rfl, rfl, rfl, rfl, rfl⟩

@[simp] theorem goTo_frame (target : MicroAddr) (s : State) :
    (goTo target s).files = s.files ∧ (goTo target s).store = s.store ∧
    (goTo target s).stream = s.stream ∧ (goTo target s).vm = s.vm ∧ (goTo target s).intr = s.intr ∧
    (goTo target s).ustack = s.ustack ∧ (goTo target s).data = s.data ∧
    (goTo target s).modes = s.modes ∧ (goTo target s).run = s.run ∧
    (goTo target s).overlay = s.overlay ∧ (goTo target s).client = s.client ∧
    (goTo target s).spyUnit = s.spyUnit ∧ (goTo target s).bus = s.bus ∧ (goTo target s).cfg = s.cfg ∧
    (goTo target s).requests = s.requests ∧ (goTo target s).inputs = s.inputs :=
  ⟨rfl, rfl, rfl, rfl, rfl, rfl, rfl, rfl, rfl, rfl, rfl, rfl, rfl, rfl, rfl, rfl⟩

@[simp] theorem pushReturn_frame (addr : MicroAddr) (s : State) :
    (pushReturn addr s).files = s.files ∧ (pushReturn addr s).store = s.store ∧
    (pushReturn addr s).stream = s.stream ∧ (pushReturn addr s).vm = s.vm ∧
    (pushReturn addr s).intr = s.intr ∧ (pushReturn addr s).data = s.data ∧
    (pushReturn addr s).modes = s.modes ∧ (pushReturn addr s).stalls = s.stalls ∧
    (pushReturn addr s).run = s.run ∧ (pushReturn addr s).overlay = s.overlay ∧
    (pushReturn addr s).client = s.client ∧ (pushReturn addr s).spyUnit = s.spyUnit ∧
    (pushReturn addr s).bus = s.bus ∧ (pushReturn addr s).cfg = s.cfg ∧
    (pushReturn addr s).requests = s.requests ∧ (pushReturn addr s).inputs = s.inputs := by
  unfold pushReturn; repeat' split
  all_goals simp [push, dropTop]

@[simp] theorem endOfCycle_frame (c : Common) (s : State) :
    (endOfCycle c s).files = s.files ∧ (endOfCycle c s).store = s.store ∧
    (endOfCycle c s).stream = s.stream ∧ (endOfCycle c s).vm = s.vm ∧ (endOfCycle c s).intr = s.intr ∧
    (endOfCycle c s).ustack = s.ustack ∧ (endOfCycle c s).data = s.data ∧
    (endOfCycle c s).modes = s.modes ∧ (endOfCycle c s).overlay = s.overlay ∧
    (endOfCycle c s).client = s.client ∧ (endOfCycle c s).spyUnit = s.spyUnit ∧
    (endOfCycle c s).bus = s.bus ∧ (endOfCycle c s).cfg = s.cfg ∧
    (endOfCycle c s).requests = s.requests ∧ (endOfCycle c s).inputs = s.inputs :=
  ⟨rfl, rfl, rfl, rfl, rfl, rfl, rfl, rfl, rfl, rfl, rfl, rfl, rfl, rfl, rfl⟩

@[simp] theorem latchConstant_frame (k : BitVec 10) (s : State) :
    (latchConstant k s).files = s.files ∧ (latchConstant k s).pcs = s.pcs ∧
    (latchConstant k s).store = s.store ∧ (latchConstant k s).stream = s.stream ∧
    (latchConstant k s).vm = s.vm ∧ (latchConstant k s).intr = s.intr ∧
    (latchConstant k s).ustack = s.ustack ∧ (latchConstant k s).modes = s.modes ∧
    (latchConstant k s).stalls = s.stalls ∧ (latchConstant k s).run = s.run ∧
    (latchConstant k s).overlay = s.overlay ∧ (latchConstant k s).client = s.client ∧
    (latchConstant k s).spyUnit = s.spyUnit ∧ (latchConstant k s).bus = s.bus ∧
    (latchConstant k s).cfg = s.cfg ∧ (latchConstant k s).requests = s.requests ∧
    (latchConstant k s).inputs = s.inputs :=
  ⟨rfl, rfl, rfl, rfl, rfl, rfl, rfl, rfl, rfl, rfl, rfl, rfl, rfl, rfl, rfl, rfl, rfl⟩

@[simp] theorem restart_frame (singleStep : Bool) (s : State) :
    (restart singleStep s).files = s.files ∧ (restart singleStep s).pcs = s.pcs ∧
    (restart singleStep s).store = s.store ∧ (restart singleStep s).stream = s.stream ∧
    (restart singleStep s).vm = s.vm ∧ (restart singleStep s).intr = s.intr ∧
    (restart singleStep s).ustack = s.ustack ∧ (restart singleStep s).data = s.data ∧
    (restart singleStep s).modes = s.modes ∧ (restart singleStep s).stalls = s.stalls ∧
    (restart singleStep s).overlay = s.overlay ∧ (restart singleStep s).client = s.client ∧
    (restart singleStep s).spyUnit = s.spyUnit ∧ (restart singleStep s).bus = s.bus ∧
    (restart singleStep s).cfg = s.cfg ∧ (restart singleStep s).requests = s.requests ∧
    (restart singleStep s).inputs = s.inputs :=
  ⟨rfl, rfl, rfl, rfl, rfl, rfl, rfl, rfl, rfl, rfl, rfl, rfl, rfl, rfl, rfl, rfl, rfl⟩

@[simp] theorem debugClockEdge_frame (old new : Word) (s : State) :
    (debugClockEdge old new s).files = s.files ∧ (debugClockEdge old new s).pcs = s.pcs ∧
    (debugClockEdge old new s).store = s.store ∧ (debugClockEdge old new s).stream = s.stream ∧
    (debugClockEdge old new s).vm = s.vm ∧ (debugClockEdge old new s).intr = s.intr ∧
    (debugClockEdge old new s).ustack = s.ustack ∧ (debugClockEdge old new s).data = s.data ∧
    (debugClockEdge old new s).modes = s.modes ∧ (debugClockEdge old new s).stalls = s.stalls ∧
    (debugClockEdge old new s).overlay = s.overlay ∧ (debugClockEdge old new s).client = s.client ∧
    (debugClockEdge old new s).spyUnit = s.spyUnit ∧ (debugClockEdge old new s).bus = s.bus ∧
    (debugClockEdge old new s).cfg = s.cfg ∧ (debugClockEdge old new s).requests = s.requests ∧
    (debugClockEdge old new s).inputs = s.inputs := by
  unfold debugClockEdge; split <;> simp

@[simp] theorem resetCounterEdge_frame (old new : Word) (s : State) :
    (resetCounterEdge old new s).files = s.files ∧ (resetCounterEdge old new s).pcs = s.pcs ∧
    (resetCounterEdge old new s).store = s.store ∧ (resetCounterEdge old new s).stream = s.stream ∧
    (resetCounterEdge old new s).vm = s.vm ∧ (resetCounterEdge old new s).ustack = s.ustack ∧
    (resetCounterEdge old new s).data = s.data ∧ (resetCounterEdge old new s).modes = s.modes ∧
    (resetCounterEdge old new s).stalls = s.stalls ∧ (resetCounterEdge old new s).run = s.run ∧
    (resetCounterEdge old new s).overlay = s.overlay ∧ (resetCounterEdge old new s).client = s.client ∧
    (resetCounterEdge old new s).spyUnit = s.spyUnit ∧ (resetCounterEdge old new s).bus = s.bus ∧
    (resetCounterEdge old new s).cfg = s.cfg ∧ (resetCounterEdge old new s).requests = s.requests ∧
    (resetCounterEdge old new s).inputs = s.inputs := by
  unfold resetCounterEdge; split <;> simp

@[simp] theorem followForceHold_frame (new : Word) (s : State) :
    (followForceHold new s).files = s.files ∧ (followForceHold new s).pcs = s.pcs ∧
    (followForceHold new s).store = s.store ∧ (followForceHold new s).stream = s.stream ∧
    (followForceHold new s).vm = s.vm ∧ (followForceHold new s).intr = s.intr ∧
    (followForceHold new s).ustack = s.ustack ∧ (followForceHold new s).data = s.data ∧
    (followForceHold new s).modes = s.modes ∧ (followForceHold new s).run = s.run ∧
    (followForceHold new s).overlay = s.overlay ∧ (followForceHold new s).client = s.client ∧
    (followForceHold new s).spyUnit = s.spyUnit ∧ (followForceHold new s).bus = s.bus ∧
    (followForceHold new s).cfg = s.cfg ∧ (followForceHold new s).requests = s.requests ∧
    (followForceHold new s).inputs = s.inputs :=
  ⟨rfl, rfl, rfl, rfl, rfl, rfl, rfl, rfl, rfl, rfl, rfl, rfl, rfl, rfl, rfl, rfl, rfl⟩

@[simp] theorem runEdge_frame (old new : Word) (s : State) :
    (runEdge old new s).files = s.files ∧ (runEdge old new s).pcs = s.pcs ∧
    (runEdge old new s).store = s.store ∧ (runEdge old new s).stream = s.stream ∧
    (runEdge old new s).vm = s.vm ∧ (runEdge old new s).intr = s.intr ∧
    (runEdge old new s).ustack = s.ustack ∧ (runEdge old new s).data = s.data ∧
    (runEdge old new s).modes = s.modes ∧ (runEdge old new s).stalls = s.stalls ∧
    (runEdge old new s).overlay = s.overlay ∧ (runEdge old new s).client = s.client ∧
    (runEdge old new s).spyUnit = s.spyUnit ∧ (runEdge old new s).bus = s.bus ∧
    (runEdge old new s).cfg = s.cfg ∧ (runEdge old new s).requests = s.requests ∧
    (runEdge old new s).inputs = s.inputs := by
  unfold runEdge; repeat' split
  all_goals simp

@[simp] theorem writeProcMode_frame (new : Word) (s : State) :
    (writeProcMode new s).files = s.files ∧ (writeProcMode new s).pcs = s.pcs ∧
    (writeProcMode new s).store = s.store ∧ (writeProcMode new s).stream = s.stream ∧
    (writeProcMode new s).vm = s.vm ∧ (writeProcMode new s).ustack = s.ustack ∧
    (writeProcMode new s).data = s.data ∧ (writeProcMode new s).overlay = s.overlay ∧
    (writeProcMode new s).client = s.client ∧ (writeProcMode new s).spyUnit = s.spyUnit ∧
    (writeProcMode new s).bus = s.bus ∧ (writeProcMode new s).cfg = s.cfg ∧
    (writeProcMode new s).requests = s.requests ∧ (writeProcMode new s).inputs = s.inputs := by
  simp [writeProcMode]

@[simp] theorem acknowledge_frame (s : State) :
    (acknowledge s).files = s.files ∧ (acknowledge s).pcs = s.pcs ∧ (acknowledge s).store = s.store ∧
    (acknowledge s).stream = s.stream ∧ (acknowledge s).vm = s.vm ∧ (acknowledge s).intr = s.intr ∧
    (acknowledge s).ustack = s.ustack ∧ (acknowledge s).data = s.data ∧
    (acknowledge s).modes = s.modes ∧ (acknowledge s).stalls = s.stalls ∧ (acknowledge s).run = s.run ∧
    (acknowledge s).overlay = s.overlay ∧ (acknowledge s).client = s.client ∧
    (acknowledge s).spyUnit = s.spyUnit ∧ (acknowledge s).cfg = s.cfg ∧
    (acknowledge s).requests = s.requests ∧ (acknowledge s).inputs = s.inputs :=
  ⟨rfl, rfl, rfl, rfl, rfl, rfl, rfl, rfl, rfl, rfl, rfl, rfl, rfl, rfl, rfl, rfl, rfl⟩

@[simp] theorem acknowledgeRead_frame (v : Word) (s : State) :
    (acknowledgeRead v s).files = s.files ∧ (acknowledgeRead v s).pcs = s.pcs ∧
    (acknowledgeRead v s).store = s.store ∧ (acknowledgeRead v s).stream = s.stream ∧
    (acknowledgeRead v s).vm = s.vm ∧ (acknowledgeRead v s).intr = s.intr ∧
    (acknowledgeRead v s).ustack = s.ustack ∧ (acknowledgeRead v s).data = s.data ∧
    (acknowledgeRead v s).modes = s.modes ∧ (acknowledgeRead v s).stalls = s.stalls ∧
    (acknowledgeRead v s).run = s.run ∧ (acknowledgeRead v s).overlay = s.overlay ∧
    (acknowledgeRead v s).client = s.client ∧ (acknowledgeRead v s).spyUnit = s.spyUnit ∧
    (acknowledgeRead v s).cfg = s.cfg ∧ (acknowledgeRead v s).requests = s.requests ∧
    (acknowledgeRead v s).inputs = s.inputs :=
  ⟨rfl, rfl, rfl, rfl, rfl, rfl, rfl, rfl, rfl, rfl, rfl, rfl, rfl, rfl, rfl, rfl, rfl⟩

@[simp] theorem advance_frame (s : State) :
    (advance s).files = s.files ∧ (advance s).store = s.store ∧ (advance s).stream = s.stream ∧
    (advance s).vm = s.vm ∧ (advance s).intr = s.intr ∧ (advance s).ustack = s.ustack ∧
    (advance s).data = s.data ∧ (advance s).modes = s.modes ∧ (advance s).stalls = s.stalls ∧
    (advance s).run = s.run ∧ (advance s).overlay = s.overlay ∧ (advance s).client = s.client ∧
    (advance s).spyUnit = s.spyUnit ∧ (advance s).bus = s.bus ∧ (advance s).cfg = s.cfg ∧
    (advance s).requests = s.requests ∧ (advance s).inputs = s.inputs :=
  ⟨rfl, rfl, rfl, rfl, rfl, rfl, rfl, rfl, rfl, rfl, rfl, rfl, rfl, rfl, rfl, rfl, rfl⟩

@[simp] theorem pushHistory_frame (s : State) :
    (pushHistory s).files = s.files ∧ (pushHistory s).pcs = s.pcs ∧ (pushHistory s).store = s.store ∧
    (pushHistory s).stream = s.stream ∧ (pushHistory s).vm = s.vm ∧ (pushHistory s).intr = s.intr ∧
    (pushHistory s).ustack = s.ustack ∧ (pushHistory s).data = s.data ∧
    (pushHistory s).modes = s.modes ∧ (pushHistory s).stalls = s.stalls ∧ (pushHistory s).run = s.run ∧
    (pushHistory s).overlay = s.overlay ∧ (pushHistory s).client = s.client ∧
    (pushHistory s).bus = s.bus ∧ (pushHistory s).cfg = s.cfg ∧ (pushHistory s).requests = s.requests ∧
    (pushHistory s).inputs = s.inputs :=
  ⟨rfl, rfl, rfl, rfl, rfl, rfl, rfl, rfl, rfl, rfl, rfl, rfl, rfl, rfl, rfl, rfl, rfl⟩

@[simp] theorem fetch_frame (s : State) :
    (fetch s).files = s.files ∧ (fetch s).store = s.store ∧ (fetch s).stream = s.stream ∧
    (fetch s).vm = s.vm ∧ (fetch s).intr = s.intr ∧ (fetch s).ustack = s.ustack ∧
    (fetch s).data = s.data ∧ (fetch s).modes = s.modes ∧ (fetch s).stalls = s.stalls ∧
    (fetch s).run = s.run ∧ (fetch s).overlay = s.overlay ∧ (fetch s).client = s.client ∧
    (fetch s).spyUnit = s.spyUnit ∧ (fetch s).bus = s.bus ∧ (fetch s).cfg = s.cfg ∧
    (fetch s).requests = s.requests ∧ (fetch s).inputs = s.inputs :=
  ⟨rfl, rfl, rfl, rfl, rfl, rfl, rfl, rfl, rfl, rfl, rfl, rfl, rfl, rfl, rfl, rfl, rfl⟩

@[simp] theorem mergeOverlay_frame (s : State) :
    (mergeOverlay s).files = s.files ∧ (mergeOverlay s).store = s.store ∧
    (mergeOverlay s).stream = s.stream ∧ (mergeOverlay s).vm = s.vm ∧ (mergeOverlay s).intr = s.intr ∧
    (mergeOverlay s).ustack = s.ustack ∧ (mergeOverlay s).data = s.data ∧
    (mergeOverlay s).modes = s.modes ∧ (mergeOverlay s).stalls = s.stalls ∧
    (mergeOverlay s).run = s.run ∧ (mergeOverlay s).client = s.client ∧
    (mergeOverlay s).spyUnit = s.spyUnit ∧ (mergeOverlay s).bus = s.bus ∧ (mergeOverlay s).cfg = s.cfg ∧
    (mergeOverlay s).requests = s.requests ∧ (mergeOverlay s).inputs = s.inputs := by
  unfold mergeOverlay; split <;> simp

@[simp] theorem countStatistics_frame (s : State) :
    (countStatistics s).files = s.files ∧ (countStatistics s).pcs = s.pcs ∧
    (countStatistics s).store = s.store ∧ (countStatistics s).stream = s.stream ∧
    (countStatistics s).vm = s.vm ∧ (countStatistics s).intr = s.intr ∧
    (countStatistics s).ustack = s.ustack ∧ (countStatistics s).data = s.data ∧
    (countStatistics s).stalls = s.stalls ∧ (countStatistics s).run = s.run ∧
    (countStatistics s).overlay = s.overlay ∧ (countStatistics s).client = s.client ∧
    (countStatistics s).spyUnit = s.spyUnit ∧ (countStatistics s).bus = s.bus ∧
    (countStatistics s).cfg = s.cfg ∧ (countStatistics s).requests = s.requests ∧
    (countStatistics s).inputs = s.inputs :=
  ⟨rfl, rfl, rfl, rfl, rfl, rfl, rfl, rfl, rfl, rfl, rfl, rfl, rfl, rfl, rfl, rfl, rfl⟩

@[simp] theorem fetchNext_frame (s : State) :
    (fetchNext s).files = s.files ∧ (fetchNext s).store = s.store ∧ (fetchNext s).stream = s.stream ∧
    (fetchNext s).vm = s.vm ∧ (fetchNext s).intr = s.intr ∧ (fetchNext s).ustack = s.ustack ∧
    (fetchNext s).data = s.data ∧ (fetchNext s).stalls = s.stalls ∧ (fetchNext s).run = s.run ∧
    (fetchNext s).client = s.client ∧ (fetchNext s).bus = s.bus ∧ (fetchNext s).cfg = s.cfg ∧
    (fetchNext s).requests = s.requests ∧ (fetchNext s).inputs = s.inputs := by
  simp [fetchNext]

/-! ## Fields -/

@[simp] theorem raiseDie_run (s : State) :
    (raiseDie s).run = { s.run with dieRequest := true, halted := true } := rfl

@[simp] theorem writeA_mmem (a : BitVec 12) (v : Word) (s : State) :
    (writeA a v s).files.mmem = s.files.mmem := rfl

@[simp] theorem writeA_amem (a : BitVec 12) (v : Word) (s : State) :
    (writeA a v s).files.amem = s.files.amem.write a.toNat v := rfl

@[simp] theorem writeM_amem (a : BitVec 12) (v : Word) (s : State) :
    (writeM a v s).files.amem = s.files.amem := rfl

@[simp] theorem writeM_mmem (a : BitVec 12) (v : Word) (s : State) :
    (writeM a v s).files.mmem = s.files.mmem.write a.toNat v := rfl

@[simp] theorem writeMReg_mmem (m : BitVec 6) (v : Word) (s : State) :
    (writeMReg m v s).files.mmem = s.files.mmem.write (m.setWidth 12).toNat v := by
  unfold writeMReg; split <;> rfl

@[simp] theorem writeMReg_amem (m : BitVec 6) (v : Word) (s : State) :
    (writeMReg m v s).files.amem =
      if s.cfg.mWriteMirrorsA then s.files.amem.write (m.setWidth 12).toNat v else s.files.amem := by
  unfold writeMReg; split <;> rfl

@[simp] theorem writeCramLow_store (u : MicroAddr) (v : Word) (s : State) :
    (writeCramLow u v s).store = { s.store with
      cram := s.store.cram.write (slotOf s u).toNat ((readCram s u).extractLsb' 32 24 ++ v) } := rfl

@[simp] theorem writeCramHigh_store (u : MicroAddr) (v : BitVec 24) (s : State) :
    (writeCramHigh u v s).store = { s.store with
      cram := s.store.cram.write (slotOf s u).toNat (v ++ (readCram s u).extractLsb' 0 32) } := rfl

@[simp] theorem writeCramMap_store (u : MicroAddr) (v : BitVec 12) (s : State) :
    (writeCramMap u v s).store = { s.store with
      cramMap := s.store.cramMap.write (u.extractLsb' 4 12).toNat v } := rfl

@[simp] theorem push_ustack (addr : MicroAddr) (s : State) :
    (push addr s).ustack =
      { ring := s.ustack.ring.write (s.ustack.ptr + 1).toNat addr, ptr := s.ustack.ptr + 1 } := rfl

@[simp] theorem dropTop_ustack (s : State) :
    (dropTop s).ustack = { s.ustack with ptr := s.ustack.ptr - 1 } := rfl

@[simp] theorem resolve_vm (vma : Word) (kind : AccessKind) (force : Bool) (s : State) :
    (resolve vma kind force s).vm.lv1 = s.vm.lv1 ∧ (resolve vma kind force s).vm.lv2c = s.vm.lv2c ∧
    (resolve vma kind force s).vm.lv2a = s.vm.lv2a ∧ (resolve vma kind force s).vm.vma = s.vm.vma ∧
    (resolve vma kind force s).vm.md = s.vm.md ∧
    (resolve vma kind force s).vm.pageFault = translationFaults s vma kind force ∧
    (resolve vma kind force s).vm.cachedGeneration = (lv2Control s vma).extractLsb' 0 6 := by
  unfold resolve; split <;> simp_all

@[simp] theorem issue_client (kind : AccessKind) (pend : BusPending) (s : State) :
    (issue kind pend s).client = { s.client with busPending := pend } := rfl

@[simp] theorem issue_requests (kind : AccessKind) (pend : BusPending) (s : State) :
    (issue kind pend s).requests = s.requests ++
      [{ kind := requestKind kind s.vm.byteMode, master := s.client.busID.val, address := busAddress s,
         data := match kind with | .write => s.vm.md | .read => 0 }] := rfl

@[simp] theorem serviceBus_client (s : State) :
    (serviceBus s).client.busID = s.client.busID := by
  unfold serviceBus; split <;> rfl

theorem serviceBus_vm (s : State) :
    (serviceBus s).vm = { s.vm with md := (serviceBus s).vm.md } := by
  unfold serviceBus; split <;> rfl

@[simp] theorem recomputeVector_intr (s : State) :
    (recomputeVector s).intr.pending = s.intr.pending ∧ (recomputeVector s).intr.status = s.intr.status := by
  unfold recomputeVector; split <;> simp

@[simp] theorem markPending_intr (v : BitVec 8) (s : State) :
    (markPending v s).intr =
      { s.intr with status := s.intr.status.write v.toNat 1, pending := s.intr.pending + 1 } := rfl

@[simp] theorem unmarkPending_intr (v : BitVec 8) (s : State) :
    (unmarkPending v s).intr =
      { s.intr with status := s.intr.status.write v.toNat 0, pending := s.intr.pending - 1 } := rfl

@[simp] theorem intResetCounter_intr (s : State) :
    (intResetCounter s).intr = { s.intr with pending := 0, status := [] } := rfl

@[simp] theorem writeLv1_vm (v : BitVec 10) (s : State) :
    (writeLv1 v s).vm = { s.vm with lv1 := s.vm.lv1.write (s.vm.md.extractLsb' 13 12).toNat v } := rfl

@[simp] theorem writeLv2Control_vm (v : BitVec 16) (s : State) :
    (writeLv2Control v s).vm = { s.vm with lv2c := s.vm.lv2c.write (lv2Index s s.vm.md).toNat v } := rfl

@[simp] theorem writeLv2Address_vm (v : BitVec 24) (s : State) :
    (writeLv2Address v s).vm = { s.vm with lv2a := s.vm.lv2a.write (lv2Index s s.vm.md).toNat v } := rfl

@[simp] theorem armCsWrite_stalls (s : State) :
    (armCsWrite s).stalls = { s.stalls with csWrite := true } := rfl

@[simp] theorem goTo_pcs (target : MicroAddr) (s : State) :
    (goTo target s).pcs = { s.pcs with nextPC := target } := rfl

@[simp] theorem goTo_stalls (target : MicroAddr) (s : State) :
    (goTo target s).stalls = { s.stalls with nopNext := true } := rfl

@[simp] theorem pushReturn_pcs (addr : MicroAddr) (s : State) :
    (pushReturn addr s).pcs = { s.pcs with popjCountdown := none } := by
  unfold pushReturn
  split
  · next h =>
    show s.pcs = _
    rw [← h]
  · split <;> rfl

@[simp] theorem endOfCycle_stalls (c : Common) (s : State) :
    (endOfCycle c s).stalls = { s.stalls with
      slowDest := c.slowDest || s.stalls.slowDest, longInst := c.ilong || s.stalls.longInst } := rfl

@[simp] theorem endOfCycle_pcs (c : Common) (s : State) :
    (endOfCycle c s).pcs = { s.pcs with
      popjCountdown := if c.pjan then some (if c.slowDest then 2 else 1) else s.pcs.popjCountdown } := rfl

@[simp] theorem endOfCycle_run (c : Common) (s : State) :
    (endOfCycle c s).run = { s.run with halted := c.halt || s.run.singleStepMode || s.run.halted } := rfl

@[simp] theorem latchConstant_data (k : BitVec 10) (s : State) :
    (latchConstant k s).data = { s.data with dispatchConstant := k } := rfl

@[simp] theorem restart_run (b : Bool) (s : State) :
    (restart b s).run = { s.run with
      singleStepMode := b, halted := if s.run.dieRequest then s.run.halted else false } := rfl

@[simp] theorem followForceHold_stalls (new : Word) (s : State) :
    (followForceHold new s).stalls = { s.stalls with forceHold := new.getLsbD 2 } := rfl

@[simp] theorem writeProcMode_modes (new : Word) (s : State) :
    (writeProcMode new s).modes = { s.modes with procMode := new } := by
  simp [writeProcMode]

@[simp] theorem writeProcMode_stalls (new : Word) (s : State) :
    (writeProcMode new s).stalls = { s.stalls with forceHold := new.getLsbD 2 } := by
  simp [writeProcMode]

@[simp] theorem acknowledge_bus (s : State) : (acknowledge s).bus = { s.bus with ack := true } := rfl

@[simp] theorem acknowledgeRead_bus (v : Word) (s : State) :
    (acknowledgeRead v s).bus = { s.bus with ack := true, data := v } := rfl

@[simp] theorem advance_pcs (s : State) :
    (advance s).pcs = { s.pcs with
      currentPC := s.pcs.nextPC, nextPC := s.pcs.afterNextPC.getD (s.pcs.nextPC + 1), afterNextPC := none } := rfl

@[simp] theorem pushHistory_debug (s : State) :
    (pushHistory s).spyUnit = { s.spyUnit with
      history := s.spyUnit.history.write s.spyUnit.historyPtr.toNat s.pcs.currentPC
      historyPtr := s.spyUnit.historyPtr + 1 } := rfl

@[simp] theorem fetch_pcs (s : State) :
    (fetch s).pcs = { s.pcs with
      ir := if s.pcs.irForced then s.pcs.ir else readCram s s.pcs.currentPC, irForced := false } := rfl

@[simp] theorem mergeOverlay_pcs (s : State) :
    (mergeOverlay s).pcs = { s.pcs with
      ir := if s.overlay.pending then s.pcs.ir ||| (s.overlay.high ++ s.overlay.low) else s.pcs.ir } := by
  unfold mergeOverlay; split <;> rfl

@[simp] theorem mergeOverlay_overlay (s : State) :
    (mergeOverlay s).overlay =
      if s.overlay.pending then { low := 0, high := 0, pending := false } else s.overlay := by
  unfold mergeOverlay; split <;> rfl

@[simp] theorem countStatistics_modes (s : State) :
    (countStatistics s).modes = { s.modes with
      statCounter := countIf (triggerCounts (statTrigger s) (s.pcs.ir.getLsbD 53)) s.modes.statCounter
      auxStatCounter := countIf (triggerCounts (auxStatTrigger s) (s.pcs.ir.getLsbD 53)) s.modes.auxStatCounter } :=
  rfl

/-- A fetch reads the store and the map and nothing of the program counters. -/
theorem readCram_eq (s : State) (u : MicroAddr) :
    readCram s u = s.store.cram.read
      (s.store.cramMap.read (u.extractLsb' 4 12).toNat ++ u.extractLsb' 0 4).toNat := rfl

end Sys2Proof.Machine
end

