-- ==== Sys2Proof/Laws/Ops.lean ====
section
/-! SUPPORT. One lemma for each shared operation that says once everything it can do: what it answers, or what
its answer implies. Later proofs cite these and do not unfold the operation. -/

namespace Sys2Proof.Machine

/-! ## A cycle that may die -/

@[simp] theorem Flow.bind_go {α β : Type} (a : α) (f : α → Flow β) : (Flow.go a).bind f = f a := rfl

@[simp] theorem Flow.bind_die {α β : Type} (k : DieCause) (s : State) (f : α → Flow β) :
    (Flow.die k s : Flow α).bind f = .die k s := rfl

theorem Flow.bind_eq_go {α β : Type} {x : Flow α} {f : α → Flow β} {b : β} :
    x.bind f = .go b ↔ ∃ a, x = .go a ∧ f a = .go b := by
  cases x <;> simp

theorem Flow.bind_eq_die {α β : Type} {x : Flow α} {f : α → Flow β} {k : DieCause} {s : State} :
    x.bind f = .die k s ↔ x = .die k s ∨ ∃ a, x = .go a ∧ f a = .die k s := by
  cases x <;> simp

@[simp] theorem finish_go (s : State) : finish (.go s) = .next s := rfl

@[simp] theorem finish_die (k : DieCause) (s : State) : finish (.die k s) = .next (raiseDie s) := rfl

/-- What a finished cycle answers. -/
theorem finish_cases {x : Flow State} {t : State} (h : finish x = .next t) :
    x = .go t ∨ ∃ k u, x = .die k u ∧ t = raiseDie u := by
  cases x with
  | go s => exact .inl (by simpa using h)
  | die k u => exact .inr ⟨k, u, rfl, by simpa using h.symm⟩

/-- A finished cycle always answers a next state. -/
theorem finish_next (x : Flow State) : ∃ t, finish x = .next t := by
  cases x <;> exact ⟨_, rfl⟩

/-! ## Memory operations -/

@[simp] theorem translationFaults_vma (s : State) (w v : Word) (kind : AccessKind) (force : Bool) :
    translationFaults { s with vm := { s.vm with vma := w } } v kind force = translationFaults s v kind force :=
  rfl

/-- A memory operation: it faults, or issues, or dies with a transaction outstanding. -/
theorem startAccess_eq (v : Word) (kind : AccessKind) (force : Bool) (pend : BusPending) (s : State) :
    startAccess v kind force pend s =
      if translationFaults s v kind force then
        .go (resolve v kind force { s with vm := { s.vm with vma := v } })
      else if s.client.busPending = .idle then
        .go (issue kind pend (resolve v kind force { s with vm := { s.vm with vma := v } }))
      else .die .busIssueWhilePending (resolve v kind force { s with vm := { s.vm with vma := v } }) := by
  simp [startAccess]

/-- A memory operation goes through exactly when it can start. -/
theorem startAccess_go (v : Word) (kind : AccessKind) (force : Bool) (pend : BusPending) (s : State)
    (h : CanStart v kind force s) : ∃ t, startAccess v kind force pend s = .go t := by
  rw [startAccess_eq]
  rcases h with h | h
  · exact ⟨_, by rw [if_pos h]⟩
  · by_cases hf : translationFaults s v kind force = true
    · exact ⟨_, by rw [if_pos hf]⟩
    · exact ⟨_, by rw [if_neg hf, if_pos h]⟩

theorem startAccess_die (v : Word) (kind : AccessKind) (force : Bool) (pend : BusPending) (s : State)
    (h : ¬ CanStart v kind force s) :
    startAccess v kind force pend s =
      .die .busIssueWhilePending (resolve v kind force { s with vm := { s.vm with vma := v } }) := by
  rw [startAccess_eq, if_neg (fun hf => h (.inl hf)), if_neg (fun hb => h (.inr hb))]

/-- What a memory operation leaves, whether it goes on or dies: only the translator's latches and VMA, the
bus client and the requests can differ. -/
theorem startAccess_frame (v : Word) (kind : AccessKind) (force : Bool) (pend : BusPending) (s t : State)
    (h : startAccess v kind force pend s = .go t ∨ ∃ k, startAccess v kind force pend s = .die k t) :
    t = { s with vm := t.vm, client := { s.client with busPending := t.client.busPending }, requests := t.requests }
      ∧ t.vm.lv1 = s.vm.lv1 ∧ t.vm.lv2c = s.vm.lv2c ∧ t.vm.lv2a = s.vm.lv2a ∧ t.vm.md = s.vm.md := by
  rw [startAccess_eq] at h
  unfold resolve at h
  split at h
  · rcases h with h | ⟨k, h⟩ <;> cases h
    simp_all
  · split at h
    · rcases h with h | ⟨k, h⟩ <;> cases h
      simp_all [issue]
    · rcases h with h | ⟨k, h⟩ <;> cases h
      simp_all

/-- The macro-stream step, when it is asked for. -/
theorem streamStep_true (s : State) :
    streamStep true s = (startAccess (streamAddress s) .read false .streamRead s).bind fun t =>
      .go { t with stream := { t.stream with lc := t.stream.lc + 2 } } := rfl

@[simp] theorem streamStep_false (s : State) : streamStep false s = .go s := rfl

/-- The macro-stream step goes through exactly when its read can start. -/
theorem streamStep_go (c : Common) (s : State) (h : StreamReady c s) :
    streamStep c.streams s = .go (afterStream c s) := by
  unfold afterStream
  cases hc : c.streams with
  | false => rfl
  | true =>
    obtain ⟨t, ht⟩ := startAccess_go _ .read false .streamRead s (h hc)
    rw [streamStep_true, ht]
    rfl

theorem streamStep_die (c : Common) (s : State) (h : ¬ StreamReady c s) :
    ∃ t, streamStep c.streams s = .die .busIssueWhilePending t ∧ t = afterStream c s := by
  have hc : c.streams = true := Decidable.byContradiction fun hc => h fun h' => absurd h' hc
  have hs : ¬ CanStart (streamAddress s) .read false s := fun hs => h (fun _ => hs)
  refine ⟨_, ?_, rfl⟩
  unfold afterStream
  rw [hc, streamStep_true, startAccess_die _ _ _ _ _ hs]
  rfl

/-- What the macro-stream step leaves: the virtual-memory latches, the bus client and `LC` apart, everything
is as it was. -/
theorem afterStream_frame (c : Common) (s : State) :
    let t := afterStream c s
    t = { s with vm := t.vm, stream := { s.stream with lc := t.stream.lc },
                 client := { s.client with busPending := t.client.busPending }, requests := t.requests }
      ∧ t.vm.lv1 = s.vm.lv1 ∧ t.vm.lv2c = s.vm.lv2c ∧ t.vm.lv2a = s.vm.lv2a ∧ t.vm.md = s.vm.md
      ∧ (c.streams = false → t = s) := by
  unfold afterStream
  cases hc : c.streams with
  | false => simp
  | true =>
    rw [streamStep_true]
    cases hx : startAccess (streamAddress s) .read false .streamRead s with
    | go t =>
      obtain ⟨h, h1, h2, h3, h4⟩ := startAccess_frame _ _ _ _ _ _ (.inl hx)
      rw [h]
      simp [h1, h2, h3, h4]
    | die k t =>
      obtain ⟨h, h1, h2, h3, h4⟩ := startAccess_frame _ _ _ _ _ _ (.inr ⟨k, hx⟩)
      rw [h]
      simp [h1, h2, h3, h4]

/-! ## Sources -/

/-- The deferred return: it dies on a filled after-next slot, else pops into `nextPC`. -/
theorem deferredReturn_eq (s : State) :
    deferredReturn s =
      if s.pcs.afterNextPC.isSome then .die .afterNextCollision s
      else .go { dropTop s with pcs := { s.pcs with nextPC := peek s, popjCountdown := none } } := by
  unfold deferredReturn
  cases s.pcs.afterNextPC <;> rfl

/-- The M operand: its value is the source's in the state it is read in, whatever the source does. -/
theorem mOperand_go (src : MSource) (s : State) (h : SourceReady src s) :
    ∃ t, mOperand src s = .go (sourceValue src s, t) := by
  obtain ⟨hl, hp⟩ := h
  cases src <;> try exact ⟨_, rfl⟩
  · simp only [mOperand, microStackPop]
    cases hj : s.pcs.popjCountdown with
    | none => exact ⟨_, rfl⟩
    | some n =>
      have ha : s.pcs.afterNextPC = none := (hp rfl).resolve_left (by simp [hj])
      exact ⟨_, by simp only [deferredReturn_eq, dropTop_frame, ha]; rfl⟩
  · simp [MSource.legal] at hl

theorem mOperand_die (src : MSource) (s : State) (h : ¬ SourceReady src s) :
    ∃ k t, mOperand src s = .die k t ∧ (t = s ∨ t = dropTop s) := by
  cases src
  case undefined => exact ⟨_, s, rfl, .inl rfl⟩
  case microStackPop =>
    cases hj : s.pcs.popjCountdown with
    | none => exact absurd ⟨rfl, fun _ => .inl hj⟩ h
    | some n =>
      cases ha : s.pcs.afterNextPC with
      | none => exact absurd ⟨rfl, fun _ => .inr ha⟩ h
      | some x =>
        refine ⟨.afterNextCollision, dropTop s, ?_, .inr rfl⟩
        simp only [mOperand, microStackPop, hj, deferredReturn_eq, dropTop_frame, ha]
        rfl
  all_goals exact absurd ⟨rfl, fun h => by cases h⟩ h

/-- What the M source leaves: only the PDL pointer, the micro-return-stack's pointer, `nextPC` and the
countdown can differ, and only for the source that pops them. -/
theorem mOperand_frame (src : MSource) (s t : State)
    (h : (∃ v, mOperand src s = .go (v, t)) ∨ ∃ k, mOperand src s = .die k t) :
    t = { s with data := { s.data with pdlPointer := t.data.pdlPointer },
                 ustack := { s.ustack with ptr := t.ustack.ptr },
                 pcs := { s.pcs with nextPC := t.pcs.nextPC, popjCountdown := t.pcs.popjCountdown } }
      ∧ (src ≠ .cPdlPointerPop → t.data = s.data)
      ∧ (src ≠ .microStackPop → t.ustack = s.ustack ∧ t.pcs = s.pcs) := by
  cases src
  case microStackPop =>
    simp only [mOperand, microStackPop] at h
    cases hj : s.pcs.popjCountdown with
    | none =>
      rw [hj] at h
      rcases h with ⟨v, h⟩ | ⟨k, h⟩ <;> cases h
      simp [dropTop]
    | some n =>
      rw [hj] at h
      simp only [deferredReturn_eq, dropTop_frame] at h
      split at h
      · rcases h with ⟨v, h⟩ | ⟨k, h⟩ <;> cases h
        simp [dropTop]
      · rcases h with ⟨v, h⟩ | ⟨k, h⟩ <;> cases h
        simp [dropTop]
  all_goals
    rcases h with ⟨v, h⟩ | ⟨k, h⟩ <;> cases h
    simp

/-- What steps 6 and 7 leave of a state whose source does not die. -/
theorem afterFetch_eq (c : Common) (s : State) (h : SourceReady c.mSrc (afterStream c s)) :
    mOperand c.mSrc (afterStream c s) = .go (mValue c s, afterFetch c s) := by
  obtain ⟨t, ht⟩ := mOperand_go _ _ h
  unfold mValue afterFetch
  rw [ht]

/-! ## Destinations -/

/-- A functional destination goes through exactly when it is documented and its memory operation can start. -/
theorem funcDest_go (f : FuncDest) (o : Word) (s : State) (m : BitVec 6) (h : DestReady (.func f m) o s) :
    ∃ t, funcDest f o s = .go t := by
  obtain ⟨hl, hs⟩ := h
  cases f <;> first
    | exact ⟨_, rfl⟩
    | exact startAccess_go _ _ _ _ _ hs
    | simp [FuncDest.legal] at hl

theorem funcDest_die (f : FuncDest) (o : Word) (s : State) (m : BitVec 6) (h : ¬ DestReady (.func f m) o s) :
    ∃ k t, funcDest f o s = .die k t ∧ (t = s ∨ ∃ kind force, t =
      resolve o kind force { s with vm := { s.vm with vma := o } }) := by
  cases f
  case undefined => exact ⟨_, _, rfl, .inl rfl⟩
  case vmaStartRead | vmaStartWrite | vmaStartReadForce | vmaStartWriteForce =>
    exact ⟨_, _, startAccess_die _ _ _ _ _ (fun hs => h ⟨rfl, hs⟩), .inr ⟨_, _, rfl⟩⟩
  all_goals exact absurd ⟨rfl, trivial⟩ h

/-- Writeback, destination by destination. -/
theorem writeback_func (f : FuncDest) (m : BitVec 6) (o : Word) (s : State) :
    writeback (.func f m) o s = (funcDest f o s).bind fun t => .go (writeMReg m o t) := rfl

@[simp] theorem writeback_a (addr : BitVec 12) (o : Word) (s : State) :
    writeback (.a addr) o s = .go (writeA addr o s) := rfl

/-! ## Transfers -/

/-- The after-next slot: it dies when filled. -/
theorem goAfterNext_eq (target : MicroAddr) (s : State) :
    goAfterNext target s =
      if s.pcs.afterNextPC.isSome then .die .afterNextCollision s
      else .go { s with pcs := { s.pcs with afterNextPC := some target } } := by
  unfold goAfterNext
  cases s.pcs.afterNextPC <;> rfl

/-- A transfer goes through unless it is an execute-next one that finds the after-next slot filled. -/
theorem transfer_go (tr : Transfer) (target : MicroAddr) (lpc : Bool) (s : State)
    (h : tr.xctNext = true → s.pcs.afterNextPC = none) : ∃ t, transfer tr target lpc s = .go t := by
  cases tr <;> simp only [transfer, goAfterNext_eq, pushReturn_pcs, dropTop_frame] <;>
    first
    | exact ⟨_, rfl⟩
    | exact ⟨_, by rw [h rfl]; rfl⟩

/-- What a transfer leaves: only the program counters, the NOP-next flag and the stack can differ. -/
theorem transfer_frame (tr : Transfer) (target : MicroAddr) (lpc : Bool) (s t : State)
    (h : transfer tr target lpc s = .go t ∨ ∃ k, transfer tr target lpc s = .die k t) :
    t = { s with pcs := { s.pcs with nextPC := t.pcs.nextPC, afterNextPC := t.pcs.afterNextPC,
                                     popjCountdown := t.pcs.popjCountdown },
                 stalls := { s.stalls with nopNext := t.stalls.nopNext }, ustack := t.ustack } := by
  have hpush : ∀ addr, pushReturn addr s =
      { s with pcs := { s.pcs with popjCountdown := none }, ustack := (pushReturn addr s).ustack } := by
    intro addr
    have h1 := pushReturn_frame addr s
    have h2 := pushReturn_pcs addr s
    generalize pushReturn addr s = u at *
    cases u
    simp_all
  cases tr <;> simp only [transfer, goAfterNext_eq] at h
  case jump | ret =>
    rcases h with h | ⟨k, h⟩ <;> cases h
    rfl
  case call =>
    rcases h with h | ⟨k, h⟩ <;> cases h
    rw [goTo, hpush]
  case callXctNext =>
    rw [hpush] at h
    by_cases ha : s.pcs.afterNextPC.isSome = true
    · simp only [ha, if_true] at h
      rcases h with h | ⟨k, h⟩ <;> cases h
      rfl
    · simp only [ha] at h
      rcases h with h | ⟨k, h⟩ <;> cases h
      rfl
  all_goals
    split at h
    all_goals
      rcases h with h | ⟨k, h⟩ <;> cases h
      rfl

/-- The entries of the micro-return-stack after a CALL's push: only the one `callSlot` names can differ. -/
theorem pushReturn_ring (addr : MicroAddr) (s : State) (n : BitVec 8) (h : callSlot s ≠ some n) :
    (pushReturn addr s).ustack.ring.read n.toNat = s.ustack.ring.read n.toNat := by
  have hpush : ∀ t : State, t.ustack.ptr + 1 ≠ n →
      (push addr t).ustack.ring.read n.toNat = t.ustack.ring.read n.toNat := by
    intro t ht
    simp only [push, Cells.read_write]
    rw [if_neg (fun e => ht (BitVec.eq_of_toNat_eq e))]
  unfold callSlot at h
  unfold pushReturn
  cases hj : s.pcs.popjCountdown with
  | none => exact hpush _ (fun e => by simp [hj] at h; exact h e)
  | some k =>
    cases hf : s.cfg.pjanCallFold with
    | cancelPush => exact hpush _ (fun e => by simp [hj, hf] at h; exact h e)
    | tailCall => rfl
    | popThenPush =>
      refine hpush _ (fun e => ?_)
      simp only [dropTop, BitVec.sub_add_cancel] at e
      simp [hj, hf, e] at h

/-! ## SPY -/

/-- What a SPY write leaves: only what has a sub-register, and what PROCESSOR_MODE acts on, can differ. -/
theorem spyWrite_frame (r : Option SpyReg) (x : Word) (s : State) :
    let t := spyWrite r x s
    t = { s with
      pcs := { s.pcs with ir := t.pcs.ir, irForced := t.pcs.irForced }
      store := { s.store with cram := t.store.cram, cramMap := t.store.cramMap }
      data := { s.data with multFT := t.data.multFT }
      modes := { s.modes with dpMode := t.modes.dpMode, rgMode := t.modes.rgMode,
                              configReg := t.modes.configReg, procMode := t.modes.procMode }
      intr := { s.intr with pending := t.intr.pending, status := t.intr.status }
      stalls := { s.stalls with forceHold := t.stalls.forceHold }
      run := { s.run with halted := t.run.halted, singleStepMode := t.run.singleStepMode }
      spyUnit := t.spyUnit } := by
  cases r with
  | none => rfl
  | some r =>
    cases r
    case processorMode =>
      simp only [spyWrite, spyStore, writeProcMode, runEdge, followForceHold, resetCounterEdge, debugClockEdge, restart]
      (repeat' split) <;> rfl
    all_goals rfl

end Sys2Proof.Machine
end

