-- ==== Sys2Proof/Laws/Memory.lean ====
section
/-! SUPPORT. The canonical form of the memories: reset has it, and every operation that can touch a memory
keeps it. -/

namespace Sys2Proof.Machine

/-- The memories of the state right after reset are in canonical form. -/
theorem reset_memoriesWf : State.reset.memoriesWf = true := by decide

/-- The canonical form, memory by memory. -/
theorem memoriesWf_iff (s : State) :
    s.memoriesWf = true ↔
      s.files.amem.wf tableWords = true ∧ s.files.mmem.wf tableWords = true
        ∧ s.store.cram.wf cramWords = true ∧ s.store.cramMap.wf tableWords = true
        ∧ s.store.mid.wf tableWords = true ∧ s.vm.lv1.wf tableWords = true
        ∧ s.vm.lv2c.wf tableWords = true ∧ s.vm.lv2a.wf tableWords = true
        ∧ s.intr.status.wf intVectors = true ∧ s.ustack.ring.wf ustackEntries = true
        ∧ s.spyUnit.history.wf tableWords = true ∧ s.spyUnit.tram.wf tableWords = true := by
  simp [State.memoriesWf, and_assoc]

/-- Only the six groups that hold memories matter. -/
theorem memoriesWf_of_eq {s t : State} (h : s.memoriesWf = true) (h1 : t.files = s.files)
    (h2 : t.store = s.store) (h3 : t.vm.lv1 = s.vm.lv1 ∧ t.vm.lv2c = s.vm.lv2c ∧ t.vm.lv2a = s.vm.lv2a)
    (h4 : t.intr.status = s.intr.status) (h5 : t.ustack.ring = s.ustack.ring)
    (h6 : t.spyUnit.history = s.spyUnit.history ∧ t.spyUnit.tram = s.spyUnit.tram) : t.memoriesWf = true := by
  rw [memoriesWf_iff] at *
  rw [h1, h2, h3.1, h3.2.1, h3.2.2, h4, h5, h6.1, h6.2]
  exact h

/-- A status bit of any vector is inside its memory. -/
theorem wf_status (v : BitVec 8) (b : BitVec 1) {m : Cells 1} (h : m.wf intVectors = true) :
    (m.write v.toNat b).wf intVectors = true :=
  Cells.wf_write _ _ _ _ h v.isLt

section
variable {s : State} (h : s.memoriesWf = true)
include h

theorem raiseDie_memoriesWf : (raiseDie s).memoriesWf = true :=
  memoriesWf_of_eq h (by simp) (by simp) (by simp) (by simp) (by simp) (by simp)

theorem writeA_memoriesWf (a : BitVec 12) (v : Word) : (writeA a v s).memoriesWf = true := by
  rw [memoriesWf_iff] at *
  exact ⟨Cells.wf_write _ _ _ _ h.1 a.isLt, h.2⟩

theorem writeM_memoriesWf (a : BitVec 12) (v : Word) : (writeM a v s).memoriesWf = true := by
  rw [memoriesWf_iff] at *
  exact ⟨h.1, Cells.wf_write _ _ _ _ h.2.1 a.isLt, h.2.2⟩

theorem writeMReg_memoriesWf (m : BitVec 6) (v : Word) : (writeMReg m v s).memoriesWf = true := by
  unfold writeMReg
  split
  · exact writeA_memoriesWf (writeM_memoriesWf h _ _) _ _
  · exact writeM_memoriesWf h _ _

theorem writeCramLow_memoriesWf (u : MicroAddr) (v : Word) : (writeCramLow u v s).memoriesWf = true := by
  rw [memoriesWf_iff] at *
  exact ⟨h.1, h.2.1, Cells.wf_write _ _ _ _ h.2.2.1 (slotOf s u).isLt, h.2.2.2⟩

theorem writeCramHigh_memoriesWf (u : MicroAddr) (v : BitVec 24) :
    (writeCramHigh u v s).memoriesWf = true := by
  rw [memoriesWf_iff] at *
  exact ⟨h.1, h.2.1, Cells.wf_write _ _ _ _ h.2.2.1 (slotOf s u).isLt, h.2.2.2⟩

theorem writeCramMap_memoriesWf (u : MicroAddr) (v : BitVec 12) : (writeCramMap u v s).memoriesWf = true := by
  rw [memoriesWf_iff] at *
  exact ⟨h.1, h.2.1, h.2.2.1, Cells.wf_write _ _ _ _ h.2.2.2.1 (u.extractLsb' 4 12).isLt, h.2.2.2.2⟩

theorem push_memoriesWf (addr : MicroAddr) : (push addr s).memoriesWf = true := by
  rw [memoriesWf_iff] at *
  obtain ⟨h1, h2, h3, h4, h5, h6, h7, h8, h9, h10, h11⟩ := h
  exact ⟨h1, h2, h3, h4, h5, h6, h7, h8, h9, Cells.wf_write _ _ _ _ h10 (s.ustack.ptr + 1).isLt, h11⟩

theorem dropTop_memoriesWf : (dropTop s).memoriesWf = true :=
  memoriesWf_of_eq h (by simp) (by simp) (by simp) (by simp) (by simp) (by simp)

theorem pushReturn_memoriesWf (addr : MicroAddr) : (pushReturn addr s).memoriesWf = true := by
  unfold pushReturn
  split
  · exact push_memoriesWf h addr
  · have ht : ({ s with pcs := { s.pcs with popjCountdown := none } } : State).memoriesWf = true := h
    dsimp only
    split
    · exact push_memoriesWf ht addr
    · exact ht
    · exact push_memoriesWf (dropTop_memoriesWf ht) addr

theorem resolve_memoriesWf (v : Word) (kind : AccessKind) (force : Bool) :
    (resolve v kind force s).memoriesWf = true :=
  memoriesWf_of_eq h (by simp) (by simp) (by simp) (by simp) (by simp) (by simp)

theorem issue_memoriesWf (kind : AccessKind) (pend : BusPending) : (issue kind pend s).memoriesWf = true :=
  memoriesWf_of_eq h (by simp) (by simp) (by simp) (by simp) (by simp) (by simp)

theorem serviceBus_memoriesWf : (serviceBus s).memoriesWf = true :=
  memoriesWf_of_eq h (by simp) (by simp) (by rw [serviceBus_vm]; simp) (by simp) (by simp) (by simp)

theorem recomputeVector_memoriesWf : (recomputeVector s).memoriesWf = true :=
  memoriesWf_of_eq h (by simp) (by simp) (by simp) (by simp) (by simp) (by simp)

theorem markPending_memoriesWf (v : BitVec 8) : (markPending v s).memoriesWf = true := by
  rw [memoriesWf_iff] at *
  obtain ⟨h1, h2, h3, h4, h5, h6, h7, h8, h9, h10⟩ := h
  have h9' := wf_status v 1 h9
  exact ⟨h1, h2, h3, h4, h5, h6, h7, h8, h9', h10⟩

theorem unmarkPending_memoriesWf (v : BitVec 8) : (unmarkPending v s).memoriesWf = true := by
  rw [memoriesWf_iff] at *
  obtain ⟨h1, h2, h3, h4, h5, h6, h7, h8, h9, h10⟩ := h
  have h9' := wf_status v 0 h9
  exact ⟨h1, h2, h3, h4, h5, h6, h7, h8, h9', h10⟩

theorem intWrite_memoriesWf (v : BitVec 8) (d : Bool) : (intWrite v d s).memoriesWf = true := by
  unfold intWrite
  refine recomputeVector_memoriesWf ?_
  split <;> split
  · exact markPending_memoriesWf h v
  · exact h
  · exact unmarkPending_memoriesWf h v
  · exact h

theorem intClear_memoriesWf : (intClear s).memoriesWf = true := by
  unfold intClear
  refine recomputeVector_memoriesWf ?_
  split
  · exact unmarkPending_memoriesWf h _
  · exact h

theorem intResetCounter_memoriesWf : (intResetCounter s).memoriesWf = true := by
  rw [memoriesWf_iff] at *
  obtain ⟨h1, h2, h3, h4, h5, h6, h7, h8, -, h10⟩ := h
  exact ⟨h1, h2, h3, h4, h5, h6, h7, h8, rfl, h10⟩

theorem interruptWindow_memoriesWf : (interruptWindow s).memoriesWf = true := by
  unfold interruptWindow
  split
  · dsimp only
    split
    · exact intWrite_memoriesWf h _ _
    · exact intWrite_memoriesWf h _ _
    · exact h
    · exact h
  · exact h

theorem writeLv1_memoriesWf (v : BitVec 10) : (writeLv1 v s).memoriesWf = true := by
  rw [memoriesWf_iff] at *
  obtain ⟨h1, h2, h3, h4, h5, h6, h7⟩ := h
  exact ⟨h1, h2, h3, h4, h5, Cells.wf_write _ _ _ _ h6 (s.vm.md.extractLsb' 13 12).isLt, h7⟩

theorem writeLv2Control_memoriesWf (v : BitVec 16) : (writeLv2Control v s).memoriesWf = true := by
  rw [memoriesWf_iff] at *
  obtain ⟨h1, h2, h3, h4, h5, h6, h7, h8⟩ := h
  exact ⟨h1, h2, h3, h4, h5, h6, Cells.wf_write _ _ _ _ h7 (lv2Index s s.vm.md).isLt, h8⟩

theorem writeLv2Address_memoriesWf (v : BitVec 24) : (writeLv2Address v s).memoriesWf = true := by
  rw [memoriesWf_iff] at *
  obtain ⟨h1, h2, h3, h4, h5, h6, h7, h8, h9⟩ := h
  exact ⟨h1, h2, h3, h4, h5, h6, h7, Cells.wf_write _ _ _ _ h8 (lv2Index s s.vm.md).isLt, h9⟩

theorem armCsWrite_memoriesWf : (armCsWrite s).memoriesWf = true := h

/-- Every functional destination keeps the canonical form, whether it goes on or dies. -/
theorem funcDest_memoriesWf (f : FuncDest) (o : Word) {t : State}
    (ht : funcDest f o s = .go t ∨ ∃ k, funcDest f o s = .die k t) : t.memoriesWf = true := by
  have start : ∀ kind force pend, startAccess o kind force pend s = .go t ∨
      (∃ k, startAccess o kind force pend s = .die k t) → t.memoriesWf = true := by
    intro kind force pend ht
    obtain ⟨e, h1, h2, h3, -⟩ := startAccess_frame _ _ _ _ _ _ ht
    exact memoriesWf_of_eq h (by rw [e]) (by rw [e]) ⟨h1, h2, h3⟩ (by rw [e]) (by rw [e]) (by rw [e]; simp)
  cases f
  case vmaStartRead | vmaStartWrite | vmaStartReadForce | vmaStartWriteForce => exact start _ _ _ ht
  all_goals
    rcases ht with ht | ⟨k, ht⟩ <;> simp only [funcDest] at ht <;> cases ht
  case cPdlPointer | cPdlIndex => exact writeM_memoriesWf h _ _
  case cPdlPointerPush =>
    exact writeM_memoriesWf (s := { s with data := { s.data with pdlPointer := s.data.pdlPointer + 1 } }) h _ _
  case lv1Map => exact writeLv1_memoriesWf h _
  case lv2MapControl => exact writeLv2Control_memoriesWf h _
  case lv2MapAddress => exact writeLv2Address_memoriesWf h _
  case cramLow => exact armCsWrite_memoriesWf (writeCramLow_memoriesWf h _ _)
  case cramHigh => exact armCsWrite_memoriesWf (writeCramHigh_memoriesWf h _ _)
  case cramMap => exact armCsWrite_memoriesWf (writeCramMap_memoriesWf h _ _)
  case interruptClear => exact intClear_memoriesWf h
  all_goals exact h

/-- Writeback keeps the canonical form, whether it goes on or dies. -/
theorem writeback_memoriesWf (d : Dest) (o : Word) {t : State}
    (ht : writeback d o s = .go t ∨ ∃ k, writeback d o s = .die k t) : t.memoriesWf = true := by
  cases d with
  | a addr =>
    rcases ht with ht | ⟨k, ht⟩ <;> cases ht
    exact writeA_memoriesWf h _ _
  | func f m =>
    rw [writeback_func] at ht
    cases hx : funcDest f o s with
    | go u =>
      rw [hx] at ht
      rcases ht with ht | ⟨k, ht⟩ <;> cases ht
      exact writeMReg_memoriesWf (funcDest_memoriesWf h f o (.inl hx)) _ _
    | die k u =>
      rw [hx] at ht
      rcases ht with ht | ⟨k', ht⟩ <;> cases ht
      exact funcDest_memoriesWf h f o (.inr ⟨_, hx⟩)

/-- Steps 6 and 7 keep the canonical form. -/
theorem afterStream_memoriesWf (c : Common) : (afterStream c s).memoriesWf = true := by
  obtain ⟨e, h1, h2, h3, -⟩ := afterStream_frame c s
  exact memoriesWf_of_eq h (by rw [e]) (by rw [e]) ⟨h1, h2, h3⟩ (by rw [e]) (by rw [e]) (by rw [e]; simp)

theorem mOperand_memoriesWf (src : MSource) {t : State}
    (ht : (∃ v, mOperand src s = .go (v, t)) ∨ ∃ k, mOperand src s = .die k t) : t.memoriesWf = true := by
  obtain ⟨e, -⟩ := mOperand_frame src s t ht
  exact memoriesWf_of_eq h (by rw [e]) (by rw [e]) (by rw [e]; simp) (by rw [e]) (by rw [e]) (by rw [e]; simp)

/-- A transfer keeps the canonical form, whether it goes on or dies. -/
theorem transfer_memoriesWf (tr : Transfer) (target : MicroAddr) (lpc : Bool) {t : State}
    (ht : transfer tr target lpc s = .go t ∨ ∃ k, transfer tr target lpc s = .die k t) :
    t.memoriesWf = true := by
  have after : ∀ (target : MicroAddr) (u : State), u.memoriesWf = true →
      (goAfterNext target u = .go t ∨ ∃ k, goAfterNext target u = .die k t) → t.memoriesWf = true := by
    intro target u hu hg
    rw [goAfterNext_eq] at hg
    split at hg <;> rcases hg with hg | ⟨k, hg⟩ <;> cases hg <;> exact hu
  cases tr
  case jump | ret =>
    rcases ht with ht | ⟨k, ht⟩ <;> cases ht
    exact h
  case call =>
    rcases ht with ht | ⟨k, ht⟩ <;> cases ht
    exact pushReturn_memoriesWf h _
  case callXctNext => exact after _ _ (pushReturn_memoriesWf h _) ht
  case jumpXctNext => exact after _ _ h ht
  case retXctNext => exact after _ _ (dropTop_memoriesWf h) ht

theorem endOfCycle_memoriesWf (c : Common) : (endOfCycle c s).memoriesWf = true := h

theorem pushHistory_memoriesWf : (pushHistory s).memoriesWf = true := by
  rw [memoriesWf_iff] at *
  obtain ⟨h1, h2, h3, h4, h5, h6, h7, h8, h9, h10, h11, h12⟩ := h
  exact ⟨h1, h2, h3, h4, h5, h6, h7, h8, h9, h10, Cells.wf_write _ _ _ _ h11 s.spyUnit.historyPtr.isLt, h12⟩

theorem mergeOverlay_memoriesWf : (mergeOverlay s).memoriesWf = true :=
  memoriesWf_of_eq h (by simp) (by simp) (by simp) (by simp) (by simp) (by simp)

/-- Step 5 keeps the canonical form. -/
theorem fetchNext_memoriesWf : (fetchNext s).memoriesWf = true := by
  have h1 : (pushHistory (advance s)).memoriesWf = true := pushHistory_memoriesWf (s := advance s) h
  exact mergeOverlay_memoriesWf (s := fetch (pushHistory (advance s))) h1

theorem writeProcMode_memoriesWf (new : Word) : (writeProcMode new s).memoriesWf = true := by
  have hr : (resetCounterEdge s.modes.procMode new (debugClockEdge s.modes.procMode new
      { s with modes := { s.modes with procMode := new } })).memoriesWf = true := by
    unfold resetCounterEdge debugClockEdge
    split <;> split
    · exact intResetCounter_memoriesWf (s := restart true _) h
    · exact intResetCounter_memoriesWf (s := { s with modes := { s.modes with procMode := new } }) h
    · exact h
    · exact h
  unfold writeProcMode runEdge
  dsimp only
  split
  · exact hr
  · split <;> exact hr

/-- A SPY write keeps the canonical form. -/
theorem spyWrite_memoriesWf (r : Option SpyReg) (x : Word) : (spyWrite r x s).memoriesWf = true := by
  cases r with
  | none => exact h
  | some r =>
    cases r
    case cramDataLow => exact writeCramLow_memoriesWf h _ _
    case cramDataHigh => exact writeCramHigh_memoriesWf h _ _
    case cramMap => exact writeCramMap_memoriesWf h _ _
    case processorMode => exact writeProcMode_memoriesWf h x
    case tramData =>
      show ({ s with spyUnit := _ } : State).memoriesWf = true
      rw [memoriesWf_iff] at *
      obtain ⟨h1, h2, h3, h4, h5, h6, h7, h8, h9, h10, h11, h12⟩ := h
      exact ⟨h1, h2, h3, h4, h5, h6, h7, h8, h9, h10, h11,
        Cells.wf_write _ _ _ _ h12 s.spyUnit.spyTramAddr.isLt⟩
    case historyData =>
      show ({ s with spyUnit := _ } : State).memoriesWf = true
      rw [memoriesWf_iff] at *
      obtain ⟨h1, h2, h3, h4, h5, h6, h7, h8, h9, h10, h11, h12⟩ := h
      exact ⟨h1, h2, h3, h4, h5, h6, h7, h8, h9, h10,
        Cells.wf_write _ _ _ _ h11 s.spyUnit.spyHistAddr.isLt, h12⟩
    all_goals exact h

theorem acknowledge_memoriesWf : (acknowledge s).memoriesWf = true := h

theorem acknowledgeRead_memoriesWf (v : Word) : (acknowledgeRead v s).memoriesWf = true := h

theorem spyRespond_memoriesWf : (spyRespond s).memoriesWf = true := by
  unfold spyRespond
  dsimp only
  split
  · exact acknowledgeRead_memoriesWf h _
  · exact acknowledgeRead_memoriesWf h _
  · exact acknowledge_memoriesWf (spyWrite_memoriesWf h _ _)
  · exact acknowledge_memoriesWf (spyWrite_memoriesWf h _ _)

theorem initEngine_memoriesWf (busID : Fin 2) : (initEngine busID s).memoriesWf = true := by
  rw [memoriesWf_iff] at *
  obtain ⟨h1, h2, h3, h4, h5, h6, h7, h8, -, h10⟩ := h
  exact ⟨h1, h2, h3, h4, h5, h6, h7, h8, rfl, h10⟩

/-- What the platform does between two cycles keeps the canonical form. -/
theorem applyEvent_memoriesWf (e : PlatformEvent) : (applyEvent e s).memoriesWf = true := by
  cases e with
  | reset busID => exact initEngine_memoriesWf h busID
  | grant =>
    unfold applyEvent
    dsimp only
    split <;> exact h
  | cells b => exact h

end

end Sys2Proof.Machine
end

