-- ==== Sys2Proof/Laws/PerInstr.lean ====
section
/-! SUPPORT. The family of statements made per instruction: the encoded word of an instruction has the `OP` code
of its format (30_encoding R142). -/

namespace Sys2Proof.Laws.EncodeOp

/-- The `OP` code of each instruction's format (R142). -/
def op : Instr → BitVec 2
  | .aluSetz _ _ => 0
  | .aluAnd _ _ => 0
  | .aluAndca _ _ => 0
  | .aluSetm _ _ => 0
  | .aluSeta _ _ => 0
  | .aluXor _ _ => 0
  | .aluIor _ _ => 0
  | .aluSeto _ _ => 0
  | .aluMstep _ _ => 0
  | .aluDstep _ _ => 0
  | .aluDfstep _ _ => 0
  | .aluRstep _ _ => 0
  | .aluSub _ _ => 0
  | .aluAdd _ _ => 0
  | .aluIncm _ _ => 0
  | .aluMplusm _ _ => 0
  | .byteLow _ _ => 3
  | .byteSeldep _ _ => 3
  | .byteLdb _ _ => 3
  | .byteDpb _ _ => 3
  | .jumpXctNext _ _ => 1
  | .jump _ _ => 1
  | .callXctNext _ _ => 1
  | .call _ _ => 1
  | .retXctNext _ _ => 1
  | .ret _ _ => 1
  | .dispatch _ _ => 2
  | .dispatchMir _ _ => 2

/-- Bits 49:48 of the encoded word. -/
def Statement (i : Instr) : Prop := (encode i).extractLsb' 48 2 = op i

theorem of_bits (w : Slot) (v : BitVec 2) (h0 : w.getLsbD 48 = v.getLsbD 0) (h1 : w.getLsbD 49 = v.getLsbD 1) :
    w.extractLsb' 48 2 = v := by
  apply BitVec.eq_of_getLsbD_eq
  intro k hk
  rw [BitVec.getLsbD_extractLsb']
  have : k = 0 ∨ k = 1 := by omega
  rcases this with rfl | rfl
  · simpa using h0
  · simpa using h1

theorem alu (code : BitVec 5) (c : Common) (f : AluFields) : (encodeAlu code c f).extractLsb' 48 2 = 0 := by
  apply of_bits <;>
    (simp only [encodeAlu, encodeCommon, BitVec.getLsbD_or, getLsbD_place, getLsbD_placeBit]; simp)

theorem byte (rsrc rmask : Bool) (c : Common) (f : ByteFields) :
    (encodeByte rsrc rmask c f).extractLsb' 48 2 = 3 := by
  apply of_bits <;>
    (simp only [encodeByte, encodeCommon, BitVec.getLsbD_or, getLsbD_place, getLsbD_placeBit]; simp)

theorem transfer (rpn : BitVec 3) (c : Common) (f : JumpFields) : (encodeJump rpn c f).extractLsb' 48 2 = 1 := by
  apply of_bits <;>
    (simp only [encodeJump, encodeCommon, BitVec.getLsbD_or, getLsbD_place, getLsbD_placeBit]; simp)

theorem dispatches (mir : Bool) (c : Common) (f : DispatchFields) :
    (encodeDispatch mir c f).extractLsb' 48 2 = 2 := by
  apply of_bits <;>
    (simp only [encodeDispatch, encodeCommon, BitVec.getLsbD_or, getLsbD_place, getLsbD_placeBit]; simp)

theorem aluSetz (c : Common) (f : AluFields) : Statement (.aluSetz c f) := alu _ c f
theorem aluAnd (c : Common) (f : AluFields) : Statement (.aluAnd c f) := alu _ c f
theorem aluAndca (c : Common) (f : AluFields) : Statement (.aluAndca c f) := alu _ c f
theorem aluSetm (c : Common) (f : AluFields) : Statement (.aluSetm c f) := alu _ c f
theorem aluSeta (c : Common) (f : AluFields) : Statement (.aluSeta c f) := alu _ c f
theorem aluXor (c : Common) (f : AluFields) : Statement (.aluXor c f) := alu _ c f
theorem aluIor (c : Common) (f : AluFields) : Statement (.aluIor c f) := alu _ c f
theorem aluSeto (c : Common) (f : AluFields) : Statement (.aluSeto c f) := alu _ c f
theorem aluMstep (c : Common) (f : AluFields) : Statement (.aluMstep c f) := alu _ c f
theorem aluDstep (c : Common) (f : AluFields) : Statement (.aluDstep c f) := alu _ c f
theorem aluDfstep (c : Common) (f : AluFields) : Statement (.aluDfstep c f) := alu _ c f
theorem aluRstep (c : Common) (f : AluFields) : Statement (.aluRstep c f) := alu _ c f
theorem aluSub (c : Common) (f : AluFields) : Statement (.aluSub c f) := alu _ c f
theorem aluAdd (c : Common) (f : AluFields) : Statement (.aluAdd c f) := alu _ c f
theorem aluIncm (c : Common) (f : AluFields) : Statement (.aluIncm c f) := alu _ c f
theorem aluMplusm (c : Common) (f : AluFields) : Statement (.aluMplusm c f) := alu _ c f
theorem byteLow (c : Common) (f : ByteFields) : Statement (.byteLow c f) := byte _ _ c f
theorem byteSeldep (c : Common) (f : ByteFields) : Statement (.byteSeldep c f) := byte _ _ c f
theorem byteLdb (c : Common) (f : ByteFields) : Statement (.byteLdb c f) := byte _ _ c f
theorem byteDpb (c : Common) (f : ByteFields) : Statement (.byteDpb c f) := byte _ _ c f
theorem jumpXctNext (c : Common) (f : JumpFields) : Statement (.jumpXctNext c f) := transfer _ c f
theorem jump (c : Common) (f : JumpFields) : Statement (.jump c f) := transfer _ c f
theorem callXctNext (c : Common) (f : JumpFields) : Statement (.callXctNext c f) := transfer _ c f
theorem call (c : Common) (f : JumpFields) : Statement (.call c f) := transfer _ c f
theorem retXctNext (c : Common) (f : JumpFields) : Statement (.retXctNext c f) := transfer _ c f
theorem ret (c : Common) (f : JumpFields) : Statement (.ret c f) := transfer _ c f
theorem dispatch (c : Common) (f : DispatchFields) : Statement (.dispatch c f) := dispatches _ c f
theorem dispatchMir (c : Common) (f : DispatchFields) : Statement (.dispatchMir c f) := dispatches _ c f

end Sys2Proof.Laws.EncodeOp
end

