-- ==== Sys2Proof/Tests/Slice0.lean ====
section
/-! SUPPORT. Tests: ill-formed terms, one decoded word for each row, one small step or two for each instruction with
the values of spec/95_test_vectors.md, and a witness for the hypotheses of each statement. -/

namespace Sys2Proof.Tests

open Sys2Proof.Machine

/-! The tests are checked one after another, so that their kernel evaluations take few threads. -/
set_option Elab.async false

/-! ## Well-formedness: each check refuses an ill-formed term -/

def c0 : Common := { halt := false, pjan := false, mf := false, msa := false, slowDest := false, ilong := false,
                     aSrc := 0, mSrc := .m 0 }
def cAM : Common := { c0 with aSrc := 4, mSrc := .m 1 }
def cA1M2 : Common := { c0 with aSrc := 1, mSrc := .m 2 }
def fM2 : AluFields := { dest := .func .none 2, out := .pass, mask := false, carry := false, qctl := .keep }
def j0 : JumpFields := { addr := 0, inv := false, test := .cond .always, lpc := false }
def d0 : DispatchFields := { dconst := 0, gcvEn := false, oldEn := false, dlen := 0, lpc := false, rot := 0 }

theorem test_wellFormed_source : Instr.wellFormed (.ret { c0 with mSrc := .undefined 0x55 } j0) = false := by decide
theorem test_wellFormed_dest :
    Instr.wellFormed (.aluAdd c0 { fM2 with dest := .func (.undefined 0x1A) 0 }) = false := by decide
theorem test_wellFormed_condition :
    Instr.wellFormed (.jump c0 { j0 with test := .cond (.undefined 7) }) = false := by decide
theorem test_legal_output : Instr.legal (.aluAdd c0 { fM2 with out := .undefined }) = false := by decide

/-! ## States -/

/-- Running, everything else as after reset. -/
def base : State := { State.reset with run := { State.reset.run with halted := false } }

/-- The state one step leaves when the word stands where it fetches. -/
def ran (w : Nat) (s : State) : State :=
  match step (s.withFetchWord 56 w) with
  | .next t => t
  | .fault _ => s
  | .refused _ => s

/-- `Amem[4]`, `Mmem[1]` and Q given. -/
def aluStart (a m q : Word) : State :=
  let s := writeA 4 a (writeM 1 m base)
  { s with data := { s.data with q := q } }

/-- `Amem[1]` and `Mmem[2]` given. -/
def byteStart (a m : Word) : State := writeA 1 a (writeM 2 m base)

/-- V9: at micro-address 5, `ustackPtr` 1, 0x0777 on top. -/
def jumpStart : State :=
  { base with
    pcs := { base.pcs with nextPC := 5 }
    ustack := { ring := [(1, 0x0777)], ptr := 1 } }

/-- V11, V14: virtual page of 0x2345 mapped to physical page 0x12, level-2 control as given. -/
def mapStart (control : BitVec 16) : State :=
  { jumpStart with vm := { jumpStart.vm with
      lv1 := [(1, 0x284)], lv2c := [(0x83, control)], lv2a := [(0x83, 0x12)], physAddr := 0x777 } }

/-- The dispatch table of V11: `Mmem[1] = 0x2346`, `Amem[0x202]` the word given. -/
def dispatchStart (w : Word) : State := writeA 0x202 w (writeM 1 0x2346 (mapStart 0x0601))

/-- A bus request by master 7 that no slave has answered. -/
def asked (k : BusKind) (address : BitVec 32) (data : Word) (s : State) : State :=
  { s with bus := { busy := true, ack := false, error := false, master := 7, kind := k, address := address, data := data } }

/-- A cycle went on. -/
def goes {α : Type} : Flow α → Bool
  | .go _ => true
  | .die _ _ => false

/-- The state a step or an instruction leaves. -/
def answer (x : Host.Outcome State Fault Refusal) : State :=
  match x with
  | .next t => t
  | .fault _ => State.reset
  | .refused _ => State.reset

theorem answer_next (x : Host.Outcome State Fault Refusal) (h : (match x with | .next _ => true | _ => false) = true) :
    x = .next (answer x) := by
  cases x with
  | next t => rfl
  | fault r => cases h
  | refused r => cases h

/-! ## Decoding, one word written out for each row (30_encoding R141 to R151) -/

/-- `ALUOP` 0x00, A=4 M=M1 -> M2. -/
theorem test_decode_aluSetz : decodeTableWord 56 0x00004020020000 = some (.aluSetz cAM fM2) := by decide
/-- `ALUOP` 0x01, A=4 M=M1 -> M2. -/
theorem test_decode_aluAnd : decodeTableWord 56 0x00004020020080 = some (.aluAnd cAM fM2) := by decide
/-- `ALUOP` 0x02, A=4 M=M1 -> M2. -/
theorem test_decode_aluAndca : decodeTableWord 56 0x00004020020100 = some (.aluAndca cAM fM2) := by decide
/-- `ALUOP` 0x03, A=4 M=M1 -> M2. -/
theorem test_decode_aluSetm : decodeTableWord 56 0x00004020020180 = some (.aluSetm cAM fM2) := by decide
/-- `ALUOP` 0x05, A=4 M=M1 -> M2. -/
theorem test_decode_aluSeta : decodeTableWord 56 0x00004020020280 = some (.aluSeta cAM fM2) := by decide
/-- `ALUOP` 0x06, A=4 M=M1 -> M2. -/
theorem test_decode_aluXor : decodeTableWord 56 0x00004020020300 = some (.aluXor cAM fM2) := by decide
/-- `ALUOP` 0x07, A=4 M=M1 -> M2. -/
theorem test_decode_aluIor : decodeTableWord 56 0x00004020020380 = some (.aluIor cAM fM2) := by decide
/-- `ALUOP` 0x0f, A=4 M=M1 -> M2. -/
theorem test_decode_aluSeto : decodeTableWord 56 0x00004020020780 = some (.aluSeto cAM fM2) := by decide
/-- `ALUOP` 0x10, A=4 M=M1 -> M2. -/
theorem test_decode_aluMstep : decodeTableWord 56 0x00004020020800 = some (.aluMstep cAM fM2) := by decide
/-- `ALUOP` 0x11, A=4 M=M1 -> M2. -/
theorem test_decode_aluDstep : decodeTableWord 56 0x00004020020880 = some (.aluDstep cAM fM2) := by decide
/-- `ALUOP` 0x12, A=4 M=M1 -> M2. -/
theorem test_decode_aluDfstep : decodeTableWord 56 0x00004020020900 = some (.aluDfstep cAM fM2) := by decide
/-- `ALUOP` 0x15, A=4 M=M1 -> M2. -/
theorem test_decode_aluRstep : decodeTableWord 56 0x00004020020a80 = some (.aluRstep cAM fM2) := by decide
/-- `ALUOP` 0x16, A=4 M=M1 -> M2. -/
theorem test_decode_aluSub : decodeTableWord 56 0x00004020020b00 = some (.aluSub cAM fM2) := by decide
/-- `ALUOP` 0x19, A=4 M=M1 -> M2. -/
theorem test_decode_aluAdd : decodeTableWord 56 0x00004020020c80 = some (.aluAdd cAM fM2) := by decide
/-- `ALUOP` 0x1c, A=4 M=M1 -> M2. -/
theorem test_decode_aluIncm : decodeTableWord 56 0x00004020020e00 = some (.aluIncm cAM fM2) := by decide
/-- `ALUOP` 0x1f, A=4 M=M1 -> M2. -/
theorem test_decode_aluMplusm : decodeTableWord 56 0x00004020020f80 = some (.aluMplusm cAM fM2) := by decide
theorem test_decode_byteLow : decodeTableWord 56 0x03001040030104
    = some (.byteLow cA1M2 { dest := .func .none 3, len := 8, rot := 4 }) := by decide
theorem test_decode_byteSeldep : decodeTableWord 56 0x03001040030904
    = some (.byteSeldep cA1M2 { dest := .func .none 3, len := 8, rot := 4 }) := by decide
theorem test_decode_byteLdb : decodeTableWord 56 0x03001040031118
    = some (.byteLdb cA1M2 { dest := .func .none 3, len := 8, rot := 24 }) := by decide
theorem test_decode_byteDpb : decodeTableWord 56 0x03001040031908
    = some (.byteDpb cA1M2 { dest := .func .none 3, len := 8, rot := 8 }) := by decide
theorem test_decode_jumpXctNext : decodeTableWord 56 0x010000008ac107
    = some (.jumpXctNext c0 { addr := 0x0456, inv := false, test := .cond .always, lpc := false }) := by decide
theorem test_decode_jump : decodeTableWord 56 0x010000008ac587
    = some (.jump c0 { addr := 0x0456, inv := false, test := .cond .always, lpc := true }) := by decide
theorem test_decode_callXctNext : decodeTableWord 56 0x010000008ac907
    = some (.callXctNext c0 { addr := 0x0456, inv := false, test := .cond .always, lpc := false }) := by decide
theorem test_decode_call : decodeTableWord 56 0x010000008acd87
    = some (.call c0 { addr := 0x0456, inv := false, test := .cond .always, lpc := true }) := by decide
theorem test_decode_retXctNext : decodeTableWord 56 0x010000008ad107
    = some (.retXctNext c0 { addr := 0x0456, inv := false, test := .cond .always, lpc := false }) := by decide
theorem test_decode_ret : decodeTableWord 56 0x010000008ad587
    = some (.ret c0 { addr := 0x0456, inv := false, test := .cond .always, lpc := true }) := by decide
theorem test_decode_dispatch : decodeTableWord 56 0x0220002AA8031C
    = some (.dispatch { c0 with aSrc := 0x200, mSrc := .m 1 } { d0 with dconst := 0x155, dlen := 3, rot := 28 }) := by decide
theorem test_decode_dispatchMir : decodeTableWord 56 0x02000000002000 = some (.dispatchMir c0 d0) := by decide

/-- Every bit of the common fields, the functional destinations, the output and Q fields: `ALU SETM M=MICRO_STACK_POP
-> IMOD_HIGH,M63 OUT=6 MASK Q=LOAD` with every common bit set. -/
theorem test_decode_all_fields : decodeTableWord 56 0xFCFFF8E6BFD1F0
    = some (.aluSetm
        { halt := true, pjan := true, mf := true, msa := true, slowDest := true, ilong := true,
          aSrc := 0xFFF, mSrc := .microStackPop }
        { dest := .func .imodHigh 63, out := .masked, mask := true, carry := true, qctl := .load }) := by decide
/-- The bits of a JUMP and of a DISPATCH that the words above leave 0. -/
theorem test_decode_jump_bit : decodeTableWord 56 0x01000040080610
    = some (.jump { c0 with mSrc := .m 2 } { addr := 0x40, inv := true, test := .bit 16, lpc := false }) := by decide
theorem test_decode_dispatch_meta : decodeTableWord 56 0x02300000001800
    = some (.dispatch { c0 with aSrc := 0x300 } { d0 with gcvEn := true, oldEn := true }) := by decide

/-! ## ALU (95_test_vectors V1: A = 0x0000FF0F, M = 0x00F0F0FF, Q odd, carry-in 1 where one enters; carry-out by V1's
A = M = 0x80000000 through output mode 1) -/

theorem test_aluSetz : (ran 0x00004020020000 (aluStart 0x0000FF0F 0x00F0F0FF 1)).files.mmem.read 2 = 0x00000000 := by decide
theorem test_aluSetz_carry : (ran 0x00004020022000 (aluStart 0x80000000 0x80000000 0)).files.mmem.read 2 = 0x00000000 := by decide
theorem test_aluAnd : (ran 0x00004020020080 (aluStart 0x0000FF0F 0x00F0F0FF 1)).files.mmem.read 2 = 0x0000f00f := by decide
theorem test_aluAnd_carry : (ran 0x00004020022080 (aluStart 0x80000000 0x80000000 0)).files.mmem.read 2 = 0xc0000000 := by decide
theorem test_aluAndca : (ran 0x00004020020100 (aluStart 0x0000FF0F 0x00F0F0FF 1)).files.mmem.read 2 = 0x00f000f0 := by decide
theorem test_aluAndca_carry : (ran 0x00004020022100 (aluStart 0x80000000 0x80000000 0)).files.mmem.read 2 = 0x00000000 := by decide
theorem test_aluSetm : (ran 0x00004020020180 (aluStart 0x0000FF0F 0x00F0F0FF 1)).files.mmem.read 2 = 0x00f0f0ff := by decide
theorem test_aluSetm_carry : (ran 0x00004020022180 (aluStart 0x80000000 0x80000000 0)).files.mmem.read 2 = 0xc0000000 := by decide
theorem test_aluSeta : (ran 0x00004020020280 (aluStart 0x0000FF0F 0x00F0F0FF 1)).files.mmem.read 2 = 0x0000ff0f := by decide
theorem test_aluSeta_carry : (ran 0x00004020022280 (aluStart 0x80000000 0x80000000 0)).files.mmem.read 2 = 0xc0000000 := by decide
theorem test_aluXor : (ran 0x00004020020300 (aluStart 0x0000FF0F 0x00F0F0FF 1)).files.mmem.read 2 = 0x00f00ff0 := by decide
theorem test_aluXor_carry : (ran 0x00004020022300 (aluStart 0x80000000 0x80000000 0)).files.mmem.read 2 = 0x00000000 := by decide
theorem test_aluIor : (ran 0x00004020020380 (aluStart 0x0000FF0F 0x00F0F0FF 1)).files.mmem.read 2 = 0x00f0ffff := by decide
theorem test_aluIor_carry : (ran 0x00004020022380 (aluStart 0x80000000 0x80000000 0)).files.mmem.read 2 = 0xc0000000 := by decide
theorem test_aluSeto : (ran 0x00004020020780 (aluStart 0x0000FF0F 0x00F0F0FF 1)).files.mmem.read 2 = 0xffffffff := by decide
theorem test_aluSeto_carry : (ran 0x00004020022780 (aluStart 0x80000000 0x80000000 0)).files.mmem.read 2 = 0xffffffff := by decide
theorem test_aluMstep : (ran 0x00004020020800 (aluStart 0x0000FF0F 0x00F0F0FF 1)).files.mmem.read 2 = 0x00f1f00e := by decide
theorem test_aluMstep_q0 : (ran 0x00004020020800 (aluStart 0x0000FF0F 0x00F0F0FF 0)).files.mmem.read 2 = 0x00f0f0ff := by decide
theorem test_aluDstep : (ran 0x00004020020880 (aluStart 0x0000FF0F 0x00F0F0FF 1)).files.mmem.read 2 = 0x00eff1f0 := by decide
theorem test_aluDstep_q0 : (ran 0x00004020020880 (aluStart 0x0000FF0F 0x00F0F0FF 0)).files.mmem.read 2 = 0x00f1f00e := by decide
theorem test_aluDfstep : (ran 0x00004020020900 (aluStart 0x0000FF0F 0x00F0F0FF 1)).files.mmem.read 2 = 0x00eff1f0 := by decide
theorem test_aluDfstep_q0 : (ran 0x00004020020900 (aluStart 0x0000FF0F 0x00F0F0FF 0)).files.mmem.read 2 = 0x00eff1f0 := by decide
theorem test_aluRstep : (ran 0x00004020020a80 (aluStart 0x0000FF0F 0x00F0F0FF 1)).files.mmem.read 2 = 0x00f0f0ff := by decide
theorem test_aluRstep_q0 : (ran 0x00004020020a80 (aluStart 0x0000FF0F 0x00F0F0FF 0)).files.mmem.read 2 = 0x00f1f00e := by decide
theorem test_aluSub : (ran 0x00004020020b40 (aluStart 0x0000FF0F 0x00F0F0FF 1)).files.mmem.read 2 = 0x00eff1f0 := by decide
theorem test_aluSub_carry : (ran 0x00004020022b00 (aluStart 0x80000000 0x80000000 0)).files.mmem.read 2 = 0x7fffffff := by decide
theorem test_aluAdd : (ran 0x00004020020cc0 (aluStart 0x0000FF0F 0x00F0F0FF 1)).files.mmem.read 2 = 0x00f1f00f := by decide
theorem test_aluAdd_carry : (ran 0x00004020022c80 (aluStart 0x80000000 0x80000000 0)).files.mmem.read 2 = 0x80000000 := by decide
theorem test_aluIncm : (ran 0x00004020020e40 (aluStart 0x0000FF0F 0x00F0F0FF 1)).files.mmem.read 2 = 0x00f0f100 := by decide
theorem test_aluIncm_carry : (ran 0x00004020022e00 (aluStart 0x80000000 0x80000000 0)).files.mmem.read 2 = 0x40000000 := by decide
theorem test_aluMplusm : (ran 0x00004020020fc0 (aluStart 0x0000FF0F 0x00F0F0FF 1)).files.mmem.read 2 = 0x01e1e1ff := by decide
theorem test_aluMplusm_carry : (ran 0x00004020022f80 (aluStart 0x80000000 0x80000000 0)).files.mmem.read 2 = 0x80000000 := by decide

/-! ## BYTE (V6, row ROT 4 LEN 8: A = 0xAAAAAAAA, M = 0x12345678) -/

theorem test_byteLow : (ran 0x03001040030104 (byteStart 0xAAAAAAAA 0x12345678)).files.mmem.read 3 = 0xAAAAAA78 := by decide
theorem test_byteSeldep : (ran 0x03001040030904 (byteStart 0xAAAAAAAA 0x12345678)).files.mmem.read 3 = 0xAAAAA67A := by decide
theorem test_byteLdb : (ran 0x03001040031104 (byteStart 0xAAAAAAAA 0x12345678)).files.mmem.read 3 = 0xAAAAAA81 := by decide
theorem test_byteDpb : (ran 0x03001040031904 (byteStart 0xAAAAAAAA 0x12345678)).files.mmem.read 3 = 0xAAAAA78A := by decide
/-- `ROT` 31, `LEN` 2: the left index wraps and the mask is empty. -/
theorem test_byteDpb_wrap : (ran 0x0300104003185F (byteStart 0xAAAAAAAA 0x12345678)).files.mmem.read 3 = 0xAAAAAAAA := by decide

/-! ## JUMP (V9) -/

def pcsOf (s : State) : MicroAddr × Option MicroAddr × Bool × BitVec 8 × MicroAddr :=
  (s.pcs.nextPC, s.pcs.afterNextPC, s.stalls.nopNext, s.ustack.ptr, peek s)

theorem test_jumpXctNext : pcsOf (ran 0x010000008AC107 jumpStart) = (0x0006, some 0x0456, false, 1, 0x0777) := by decide
theorem test_jump : pcsOf (ran 0x010000008AC507 jumpStart) = (0x0456, none, true, 1, 0x0777) := by decide
theorem test_callXctNext : pcsOf (ran 0x010000008AC907 jumpStart) = (0x0006, some 0x0456, false, 2, 0x0007) := by decide
theorem test_callXctNext_lpc : pcsOf (ran 0x010000008AC987 jumpStart) = (0x0006, some 0x0456, false, 2, 0x0005) := by decide
theorem test_call : pcsOf (ran 0x010000008ACD07 jumpStart) = (0x0456, none, true, 2, 0x0006) := by decide
theorem test_call_lpc : pcsOf (ran 0x010000008ACD87 jumpStart) = (0x0456, none, true, 2, 0x0005) := by decide
theorem test_retXctNext : pcsOf (ran 0x010000008AD107 jumpStart) = (0x0006, some 0x0777, false, 0, 0x0000) := by decide
theorem test_ret : pcsOf (ran 0x010000008AD507 jumpStart) = (0x0777, none, true, 0, 0x0000) := by decide
/-- V7: `LT`, M = 0xFFFFFFFF against A = 0. -/
theorem test_jump_lt : (ran 0x01001020080501 (writeM 1 0xFFFFFFFF base)).pcs.nextPC = 0x0040 := by decide
/-- An illegal `RPN` dies even where the condition never holds (V9). -/
theorem test_illegal_rpn : (ran 0x01000000081B07 base).run.dieRequest = true := by decide

/-! ## DISPATCH (V11, R440) -/

theorem test_dispatch : pcsOf (ran 0x02200020000200 (dispatchStart 0x000B0456)) = (0x0456, none, true, 2, 0x0006) := by decide
/-- The start-read of the same word: `ReadWord` at 0x4918. -/
theorem test_dispatch_read : (ran 0x02200020000200 (dispatchStart 0x000B0456)).requests
    = [{ kind := .readWord, master := 0, address := 0x4918, data := 0 }] := by decide
/-- `macroIR` = 0xABCD1234, `LC` = 0x102: `Mid[0x123]`; the countdown is armed. -/
def mirStart : State :=
  { base with
    stream := { macroIR := 0xABCD1234, lc := 0x102 }
    store := { base.store with mid := [(0x123, 0x00010070), (0xABC, 0x00010071)] } }
theorem test_dispatchMir : (ran 0x02000000002000 mirStart).pcs.nextPC = 0x0070
    ∧ (ran 0x02000000002000 mirStart).stalls.macroDispatch = 2 := by decide
theorem test_dispatchMir_odd :
    (ran 0x02000000002000 { mirStart with stream := { macroIR := 0xABCD1234, lc := 0x104 } }).pcs.nextPC = 0x0071 := by decide

/-! ## Memory operations and the fatal fault -/

/-- V14: `VMA_START_READ` of 0x2345 with access 3 and with access 1. -/
theorem test_start_read : (ran 0x00014002800280 (writeA 20 0x2345 (mapStart 0x0601))).requests
    = [{ kind := .readWord, master := 0, address := 0x4914, data := 0 }] := by decide
theorem test_start_read_faults : (ran 0x00014002800280 (writeA 20 0x2345 (mapStart 0x0201))).vm.pageFault = true := by decide
/-- T7: an undefined `ALUOP` dies with `currentPC` 0 and `nextPC` 1. -/
theorem test_undefined_opcode : (ran 0x00000000000200 base).run = { halted := true, singleStepMode := false, dieRequest := true }
    ∧ (ran 0x00000000000200 base).pcs.nextPC = 1 := by decide

/-! ## Witnesses: states and operands that meet the hypotheses of the statements, clause by clause -/

/-- Whether an instruction or a step answers a next state. -/
def nexts (x : Host.Outcome State Fault Refusal) : Bool :=
  match x with
  | .next _ => true
  | .fault _ => false
  | .refused _ => false

def cPop : Common := { c0 with mSrc := .microStackPop }
def cStream : Common := { c0 with mf := true }
def cDispatch : Common := { c0 with aSrc := 0x200, mSrc := .m 1 }
def dDispatch : DispatchFields := { d0 with dlen := 2 }
/-- A transaction is outstanding. -/
def pendingStart : State :=
  let s := mapStart 0x0601
  { s with client := { s.client with busPending := .dataRead } }
/-- PJAN armed. -/
def armed (n : Option (Fin 3)) (after : Option MicroAddr) : State :=
  { jumpStart with pcs := { jumpStart.pcs with popjCountdown := n, afterNextPC := after } }
/-- Stalls pending. -/
def stalled (st : Stalls) : State := { base with stalls := st }
/-- Interrupts enabled or not, and a status memory. -/
def intStart (enable : Word) (status : Cells 1) (pending : BitVec 9) : State :=
  { base with modes := { base.modes with rgMode := enable }, intr := { status := status, pending := pending, vector := 7 } }
/-- This engine owns the bus with a transaction of this kind outstanding. -/
def owned (p : BusPending) (ack error : Bool) : State :=
  { base with
    client := { base.client with busPending := p }
    bus := { busy := true, ack := ack, error := error, master := 0, kind := .readWord, address := 0, data := 0xCAFEF00D } }

theorem witness_DecodeOfEncodeIsIdentity :
    Instr.wellFormed (.aluSetm { c0 with mSrc := .undefined 0x56 }
      { fM2 with dest := .func (.undefined 0x1B) 63, out := .undefined }) = true
    ∧ Instr.wellFormed (.jump { c0 with mSrc := .m 63 } { j0 with test := .cond (.undefined 8) }) = true
    ∧ Instr.wellFormed (.byteDpb c0 { dest := .a 0xFFF, len := 63, rot := 31 }) = true
    ∧ Instr.wellFormed (.dispatch c0 d0) = true := by decide +kernel

theorem witness_EncodeOfDecodeKeepsUsedBits : decode 0x00004020020C8F = .ok (.aluAdd cAM fM2) := rfl

theorem witness_SpareBitsAndUnusedFieldsAreIgnored :
    (0x00004020020C8F : Slot) &&& usedBits 0x00004020020C80 = 0x00004020020C80 &&& usedBits 0x00004020020C80
    ∧ (0xFFF10456 : Word).extractLsb' 0 20 = (0x00010456 : Word).extractLsb' 0 20 := by decide +kernel

theorem witness_SpareBits_operations :
    Instr.aluSetz ∈ [Instr.aluSetz, .aluAnd, .aluAndca, .aluSetm, .aluSeta, .aluXor, .aluIor, .aluSeto, .aluMstep, .aluDstep,
      .aluDfstep, .aluRstep] := by simp

/-- One word for each entry of the list of R157, at the lowest illegal code. -/
theorem witness_IllegalEncodingsDie :
    IllegalWord 0xAC0000000 ∧ IllegalWord 0x200 ∧ IllegalWord 0xE000 ∧ IllegalWord 0x6C00000 ∧ IllegalWord 0x03000006C00000
    ∧ IllegalWord 0x01000000080508 ∧ IllegalWord 0x01000000081907 :=
  ⟨.inl (by decide +kernel), .inr (.inl (by decide +kernel)), .inr (.inr (.inl (by decide +kernel))),
    .inr (.inr (.inr (.inl (by decide +kernel)))), .inr (.inr (.inr (.inl (by decide +kernel)))),
    .inr (.inr (.inr (.inr (.inl (by decide +kernel))))), .inr (.inr (.inr (.inr (.inr (by decide +kernel)))))⟩

theorem witness_IllegalEncodingsDie_dispatch : ∀ rpn ∈ [6, 7],
    let s := dispatchStart (BitVec.ofNat 32 (rpn * 2 ^ 16 + 0x456))
    6 ≤ (s.files.amem.read (tableIndex cDispatch dDispatch (mValue cDispatch s) (afterFetch cDispatch s))).toNat / 2 ^ 16 % 8 := by
  decide +kernel

theorem witness_IllegalEncodingsDie_macro :
    6 ≤ (macroWord (afterFetch c0 { mirStart with store := { base.store with mid := [(0x123, 0x00060070)] } })).toNat
      / 2 ^ 16 % 8 := by decide +kernel

theorem witness_StepRunsDecodedInstruction :
    let s := base.withFetchWord 56 0x00004020020C80
    Running s ∧ tickPjan (atStep3 s) = .go (atStep3 s) ∧ NoStall (atStep3 s)
      ∧ decode (fetchNext (atStep3 s)).pcs.ir = .ok (.aluAdd cAM fM2) :=
  ⟨by decide +kernel, rfl, by decide +kernel, rfl⟩

/-- A fetched word with `RPN` 6, its operands fetched, and one whose M source is illegal too. -/
theorem witness_StepRunsDecodedInstruction_rejected :
    (let s := base.withFetchWord 56 0x01000000081907
     let u := fetchNext (atStep3 s)
     Running s ∧ tickPjan (atStep3 s) = .go (atStep3 s) ∧ NoStall (atStep3 s)
       ∧ decode u.pcs.ir = .error (.illegalRpn 6) ∧ FetchReady (decodeCommon u.pcs.ir) u)
    ∧ (let s := base.withFetchWord 56 0x01000AC0081907
       let u := fetchNext (atStep3 s)
       Running s ∧ tickPjan (atStep3 s) = .go (atStep3 s) ∧ NoStall (atStep3 s)
         ∧ decode u.pcs.ir = .error (.illegalRpn 6) ∧ ¬ FetchReady (decodeCommon u.pcs.ir) u) :=
  ⟨⟨by decide +kernel, rfl, by decide +kernel, rfl, by decide +kernel⟩,
    ⟨by decide +kernel, rfl, by decide +kernel, rfl, by decide +kernel⟩⟩

theorem witness_FetchAdvancesAndMerges :
    (armed none (some 9)).pcs.afterNextPC = some 9 ∧ base.pcs.afterNextPC = none ∧ base.overlay.pending = false
    ∧ ({ base with overlay := { low := 1, high := 1, pending := true } } : State).overlay.pending = true := by decide +kernel

theorem witness_HaltedOrHeldEngineOnlyServesTheBus :
    (spySelected (atStep3 State.reset) = false ∧ (atStep3 State.reset).run.halted = true)
    ∧ (let s := stalled { base.stalls with forceHold := true }
       spySelected (atStep3 s) = false ∧ (atStep3 s).stalls.forceHold = true) := by decide +kernel

/-- The five clauses, each with every lower-priority flag set too. -/
theorem witness_OneStallPerCycleByPriority : ∀ st ∈ ([
      { forceHold := false, slowDest := true, longInst := true, nopNext := true, csWrite := true, macroDispatch := 1 },
      { forceHold := false, slowDest := false, longInst := true, nopNext := true, csWrite := true, macroDispatch := 1 },
      { forceHold := false, slowDest := false, longInst := false, nopNext := true, csWrite := true, macroDispatch := 1 },
      { forceHold := false, slowDest := false, longInst := false, nopNext := false, csWrite := true, macroDispatch := 1 },
      { forceHold := false, slowDest := false, longInst := false, nopNext := false, csWrite := false, macroDispatch := 1 }
    ] : List Stalls), Running (stalled st) ∧ goes (tickPjan (atStep3 (stalled st))) = true ∧ (atStep3 (stalled st)).stalls = st := by
  decide +kernel

theorem witness_PjanTicksAndFires :
    (armed none none).pcs.popjCountdown = none
    ∧ (armed (some 2) none).pcs.popjCountdown = some 2
    ∧ ((armed (some 0) none).pcs.popjCountdown = some 0 ∧ (armed (some 0) none).pcs.afterNextPC = none)
    ∧ (Running (armed (some 0) (some 9)) ∧ (atStep3 (armed (some 0) (some 9))).pcs.popjCountdown = some 0
      ∧ (atStep3 (armed (some 0) (some 9))).pcs.afterNextPC = some 9) := by decide +kernel

theorem witness_CommonBitsTakeEffectAtEndOfCycle :
    let i := Instr.aluAdd { cAM with slowDest := true, ilong := true, halt := true, pjan := true } fM2
    exec i base = .next (answer (exec i base)) ∧ (answer (exec i base)).run.dieRequest = false :=
  ⟨answer_next _ (by decide +kernel), by decide +kernel⟩

theorem witness_OperandFetchCompletes :
    FetchReady cStream base ∧ FetchReady cPop (armed (some 1) none)
    ∧ ¬ FetchReady { c0 with mSrc := .undefined 0x56 } base ∧ ¬ FetchReady cPop (armed (some 1) (some 9)) := by decide +kernel

theorem witness_MacroStreamStepReadsAndAdvances :
    (c0.mf = false ∧ c0.msa = false) ∧ cStream.mf = true ∧ ({ c0 with msa := true } : Common).msa = true
    ∧ StreamReady cStream (mapStart 0x0601) ∧ StreamReady cStream pendingStart := by decide +kernel

theorem witness_OnlyPoppingSourcesHaveEffects :
    SourceReady c0.mSrc base ∧ SourceReady .cPdlPointerPop base
    ∧ (SourceReady .microStackPop (armed none none) ∧ (armed none none).pcs.popjCountdown = none)
    ∧ (SourceReady .microStackPop (armed (some 1) none) ∧ (armed (some 1) none).pcs.popjCountdown ≠ none) := by decide +kernel

/-- V1's operands and results, and what the other hypotheses and `AluDone` ask for. -/
theorem witness_LogicalAluInstructionsComplete :
    (∀ p ∈ [(0x00, (0x00000000 : Word)), (0x01, 0x0000F00F), (0x02, 0x00F000F0), (0x03, 0x00F0F0FF), (0x05, 0x0000FF0F),
        (0x06, 0x00F00FF0), (0x07, 0x00F0FFFF), (0x0F, 0xFFFFFFFF)],
      ∀ k, k < 32 → p.2.getLsbD k =
        Nat.testBit p.1 (2 * (1 - ((mValue cAM (aluStart 0x0000FF0F 0x00F0F0FF 1)).getLsbD k).toNat)
          + (1 - ((aValue cAM (aluStart 0x0000FF0F 0x00F0F0FF 1)).getLsbD k).toNat)))
    ∧ FetchReady cAM (aluStart 0x0000FF0F 0x00F0F0FF 1)
    ∧ DestReady fM2.dest 0 (afterFetch cAM (aluStart 0x0000FF0F 0x00F0F0FF 1)) :=
  ⟨by decide +kernel, by decide +kernel, rfl, trivial⟩

/-- The four step results of V1 with Q odd, as 33-bit sums; the next witness has the carry operations. -/
theorem witness_StepAluInstructionsComplete :
    let s := aluStart 0x0000FF0F 0x00F0F0FF 1
    let a := (aValue cAM s).toNat
    let m := (mValue cAM s).toNat
    let q0 := s.data.q.getLsbD 0
    ∀ p ∈ [(Instr.aluMstep cAM fM2, 0xF1F00E), (.aluDstep cAM fM2, 0x100EFF1F0), (.aluDfstep cAM fM2, 0x100EFF1F0),
        (.aluRstep cAM fM2, 0xF0F0FF)],
      p ∈ [(Instr.aluMstep cAM fM2, if q0 then m + a else m),
        (.aluDstep cAM fM2, if q0 then m + (2 ^ 32 - 1 - a) + 1 else m + a),
        (.aluDfstep cAM fM2, m + (2 ^ 32 - 1 - a) + 1), (.aluRstep cAM fM2, if q0 then m else m + a)] := by decide +kernel

theorem witness_CarryAluInstructionsComplete :
    let s := aluStart 0xFFFFFFFF 0x00000001 0
    let a := (aValue cAM s).toNat
    let m := (mValue cAM s).toNat
    let f := { fM2 with carry := true }
    (∀ p ∈ [(Instr.aluSub cAM f, 2), (.aluAdd cAM f, 0x100000001), (.aluIncm cAM f, 2), (.aluMplusm cAM f, 3)],
      p ∈ [(Instr.aluSub cAM f, m + (2 ^ 32 - 1 - a) + f.carry.toNat), (.aluAdd cAM f, m + a + f.carry.toNat),
        (.aluIncm cAM f, m + f.carry.toNat), (.aluMplusm cAM f, m + m + f.carry.toNat)])
    ∧ FetchReady cAM s ∧ DestReady f.dest 0 (afterFetch cAM s) :=
  ⟨by decide +kernel, by decide +kernel, rfl, trivial⟩

/-- V6, row `ROT` 4 `LEN` 8. -/
theorem witness_ByteInstructionsComplete :
    let s := byteStart 0xAAAAAAAA 0x12345678
    let f : ByteFields := { dest := .func .none 3, len := 8, rot := 4 }
    (∀ p ∈ [(false, false, 0xAAAAAA78), (false, true, 0xAAAAA67A), (true, false, 0xAAAAAA81), (true, true, 0xAAAAA78A)],
      ∀ k, k < 32 → (BitVec.ofNat 32 p.2.2).getLsbD k =
        if (if p.2.1 then f.rot.toNat else 0) ≤ k ∧ k < ((if p.2.1 then f.rot.toNat else 0) + f.len.toNat) % 33 then
          (mValue cA1M2 s).getLsbD (if p.1 then (k + 32 - f.rot.toNat) % 32 else k)
        else (aValue cA1M2 s).getLsbD k)
    ∧ FetchReady cA1M2 s ∧ DestReady f.dest 0 (afterFetch cA1M2 s) :=
  ⟨by decide +kernel, by decide +kernel, rfl, trivial⟩

theorem witness_DepositThenLoadReturnsTheField : (31#5).toNat + (1#6).toNat ≤ 32 ∧ (0#5).toNat + (32#6).toNat ≤ 32 := by decide +kernel

theorem witness_WritebackStoresTheOutput :
    DestReady (.a 0xFFF) 0 base ∧ DestReady (.func .none 63) 0 base ∧ DestReady (.func .vmaStartRead 0) 0x2345 (mapStart 0x0601)
    ∧ ¬ DestReady (.func (.undefined 0x1B) 0) 0 base ∧ ¬ DestReady (.func .vmaStartRead 0) 0x2345 pendingStart :=
  ⟨trivial, ⟨rfl, trivial⟩, ⟨rfl, (by decide +kernel : CanStart 0x2345 .read false (mapStart 0x0601))⟩, fun h => (by cases h.1),
    fun h => (by decide +kernel : ¬ CanStart 0x2345 .read false pendingStart) h.2⟩

theorem witness_RegisterDestinationsLoad : ∀ signed ∈ [true, false], ∀ f ∈ [FuncDest.lc, .dpMode, .rgMode, .pdlPointer, .pdlIndex,
      .vma, .md, .multiplierInput, .statCounter, .statCounterAux, .imodLow, .imodHigh],
    goes (writeback (.func f 0) 0xFFFFFFFF { base with cfg := { base.cfg with multSigned := signed } }) = true := by decide +kernel

theorem witness_MemoryDestinationsStore : ∀ f ∈ [FuncDest.cPdlPointer, .cPdlPointerPush, .cPdlIndex, .lv1Map, .lv2MapControl,
    .lv2MapAddress, .cramLow, .cramHigh, .cramMap], goes (writeback (.func f 63) 0xFFFFFFFF base) = true := by decide +kernel

/-- A faulting page and an idle bus, for each of the four. -/
theorem witness_StartDestinationsIssueRequests : ∀ kind ∈ [AccessKind.read, .write], ∀ force ∈ [true, false],
    FaultRule (mapStart 0x0801) 0x2345 kind force
    ∧ ¬ FaultRule (mapStart 0x0601) 0x2345 kind force ∧ (mapStart 0x0601).client.busPending = .idle := by
  unfold FaultRule; decide +kernel

theorem witness_SecondTransactionDies :
    FuncDest.vmaStartRead.start = some (.read, false) ∧ ¬ FaultRule pendingStart 0x2345 .read false
    ∧ pendingStart.client.busPending ≠ .idle
    ∧ (let s := { pendingStart with stream := { pendingStart.stream with lc := 0x2345 * 4 } }
       (Instr.ret cStream j0).common.streams = true ∧ ¬ FaultRule s (streamAddress s) .read false) := by
  unfold FaultRule; decide +kernel

/-- Dispatch words with the start-read, from A-memory and from the macro-dispatch memory, one with an illegal code. -/
theorem witness_SecondTransactionDies_dispatch : ∀ w ∈ [0x000B0456, 0x000E0456],
    let d := dispatchStart (BitVec.ofNat 32 w)
    let s := { d with client := { d.client with busPending := .dataRead }
                      store := { d.store with mid := [(0, BitVec.ofNat 32 w)] } }
    let u := afterFetch cDispatch s
    FetchReady cDispatch s ∧ s.files.amem.read (tableIndex cDispatch dDispatch (mValue cDispatch s) u) = BitVec.ofNat 32 w
      ∧ macroWord u = BitVec.ofNat 32 w ∧ (BitVec.ofNat 32 w).getLsbD 19 = true
      ∧ ¬ FaultRule u (mValue cDispatch s) .read false ∧ u.client.busPending ≠ .idle := by
  unfold FaultRule; decide +kernel

theorem witness_TranslationFollowsAccessRights :
    FaultRule (mapStart 0x0201) 0x2345 .read false ∧ ¬ FaultRule (mapStart 0x0A01) 0x2345 .read true := by
  unfold FaultRule; decide +kernel

theorem witness_InterruptWindowWrites :
    ((intStart 1 [] 0).modes.rgMode.getLsbD 0 = true ∧ (intStart 1 [] 0).intr.status.read 255 = 0)
    ∧ (intStart 0 [(255, 1)] 1).intr.status.read 255 = 1
    ∧ ¬ (intStart 0 [] 0).modes.rgMode.getLsbD 0 = true
    ∧ (intWrite 255 true (intStart 1 [] 0)).intr.status.read 255 = 1
    ∧ ∀ n, n < 256 → (intWrite 255 false (intStart 0 [(255, 1)] 1)).intr.status.read n = 0 :=
  ⟨by decide +kernel, by decide +kernel, by decide +kernel, by decide +kernel, fun _ _ => rfl⟩

/-- The first and the last address of the window, and the first above it. -/
theorem witness_InterruptWindowIsServedInStepTwo :
    ∀ k ∈ [BusKind.writeWord, .writeByte, .readWord, .readByte],
      (∀ off ∈ [0, 0x3FF],
        let s := asked k (BitVec.ofNat 32 (0xF0000400 + off)) 1 base
        s.bus.busy = true ∧ s.bus.ack = false ∧ s.bus.error = false ∧ 0xF0000400 ≤ s.bus.address.toNat
          ∧ s.bus.address.toNat < 0xF0000400 + 0x400)
      ∧ ¬ (asked k 0xF0000800 1 base).bus.address.toNat < 0xF0000400 + 0x400 := by decide +kernel

theorem witness_InterruptClearClearsTheActiveVector :
    (answer (finish (writeback (.func .interruptClear 0) 0 (intStart 1 [(7, 1), (255, 1)] 2)))).intr.status.read 255 = 1
    ∧ ∀ n, n < 256 → (answer (finish (writeback (.func .interruptClear 0) 0 (intStart 1 [(7, 1)] 1)))).intr.status.read n = 0 :=
  ⟨by decide +kernel, fun _ _ => rfl⟩

theorem witness_PushesReplayInReverse :
    (List.replicate 256 (0xFFFF : MicroAddr)).length ≤ 256 ∧ 255 < (List.replicate 256 (0xFFFF : MicroAddr)).length := by
  rw [List.length_replicate]; decide +kernel

/-- Each kind of test in a state where it is taken, and the other hypotheses. -/
theorem witness_TakenJumpsTransfer :
    FetchReady c0 jumpStart ∧ j0.test.legal = true ∧ jumpStart.pcs.afterNextPC = none
    ∧ Taken j0 2 2 jumpStart ∧ Taken { j0 with test := .cond .le } 2 2 jumpStart
    ∧ Taken { j0 with test := .cond .lt } 0 0xFFFFFFFF jumpStart ∧ Taken { j0 with test := .cond .ne } 0 1 jumpStart
    ∧ Taken { j0 with test := .cond .typeMismatch } 0 0x02000000 jumpStart
    ∧ Taken { j0 with test := .cond .noPf } 0 0 jumpStart ∧ Taken { j0 with test := .bit 31 } 0 2 jumpStart
    ∧ Taken { j0 with test := .cond .pfInt, inv := true } 0 0 jumpStart
    ∧ Taken { j0 with test := .cond .pfIntSb, inv := true } 0 0 jumpStart := by
  refine ⟨by decide +kernel, rfl, rfl, ?_, ?_, ?_, ?_, ?_, ?_, ?_, ?_, ?_⟩ <;>
    first | exact ⟨fun _ => rfl, fun _ => trivial⟩ | (simp only [Taken, TestTrue, j0]; decide +kernel)

theorem witness_UntakenJumpsFallThrough :
    FetchReady c0 jumpStart ∧ ¬ Taken { j0 with inv := true } (aValue c0 jumpStart) (mValue c0 jumpStart) (afterFetch c0 jumpStart) :=
  ⟨by decide +kernel, fun h => by cases h.1 trivial⟩

theorem witness_GcVolatilityComparesGenerations : (mapStart 0).cfg.gcvCompare = .generationGreater := rfl

/-- The words of V11: every code, with and without start-read, on a mapped page and on a faulting one. -/
theorem witness_DispatchesTransferByTheirWord :
    (∀ p ∈ [(Transfer.jumpXctNext, (0x00080456 : Word)), (.jump, 0x00010456), (.callXctNext, 0x00020456), (.call, 0x000B0456),
        (.retXctNext, 0x00040456), (.ret, 0x00050456)],
      p.1.code = p.2.toNat / 2 ^ 16 % 8
        ∧ (dispatchStart p.2).files.amem.read
            (tableIndex cDispatch dDispatch (mValue cDispatch (dispatchStart p.2)) (afterFetch cDispatch (dispatchStart p.2))) = p.2
        ∧ FetchReady cDispatch (dispatchStart p.2) ∧ (dispatchStart p.2).pcs.afterNextPC = none
        ∧ (afterFetch cDispatch (dispatchStart p.2)).client.busPending = .idle)
    ∧ (0x000B0456 : Word).getLsbD 19 = true ∧ (0x00030456 : Word).getLsbD 19 = false
    ∧ Transfer.jump.code = (macroWord (afterFetch c0 mirStart)).toNat / 2 ^ 16 % 8 := by decide +kernel

theorem witness_DispatchesTransferByTheirWord_fault : FaultRule (afterFetch cDispatch (mapStart 0)) 0x2345 .read false := by
  unfold FaultRule; decide +kernel

/-- All twenty-eight constructors answer a next state from one state, as the three frames and the completion ask. -/
theorem witness_Frames : ∀ i ∈ [Instr.aluSetz cAM fM2, .aluAnd cAM fM2, .aluAndca cAM fM2, .aluSetm cAM fM2, .aluSeta cAM fM2,
      .aluXor cAM fM2, .aluIor cAM fM2, .aluSeto cAM fM2, .aluMstep cAM fM2, .aluDstep cAM fM2, .aluDfstep cAM fM2,
      .aluRstep cAM fM2, .aluSub cAM fM2, .aluAdd cAM fM2, .aluIncm cAM fM2,
      .aluMplusm cAM { fM2 with dest := .func .cPdlPointerPush 0 }, .byteLow cAM { dest := .a 0, len := 8, rot := 0 },
      .byteSeldep cAM { dest := .a 0, len := 8, rot := 0 }, .byteLdb cAM { dest := .a 0, len := 8, rot := 0 },
      .byteDpb cAM { dest := .a 0, len := 8, rot := 0 }, .jumpXctNext c0 j0, .jump c0 j0, .callXctNext c0 j0, .call c0 j0,
      .retXctNext cPop j0, .ret cPop j0, .dispatch cDispatch dDispatch, .dispatchMir c0 d0],
    nexts (exec i (dispatchStart 0x000B0456)) = true ∧ i.legal = true ∧ i.common.streams = false := by decide +kernel

/-- The one entry a CALL stores to, the neighbours it does not, and the CALL not taken that stores none. -/
theorem witness_InstructionsLeaveOtherMemoryUnchanged :
    callSlot (armed none none) = some ((armed none none).ustack.ptr + 1)
    ∧ (∀ p ∈ [(PjanCallFold.cancelPush, some ((armed none none).ustack.ptr + 1)), (.tailCall, none),
        (.popThenPush, some (armed none none).ustack.ptr)],
        callSlot { armed (some 1) none with cfg := { base.cfg with pjanCallFold := p.1 } } = p.2)
    ∧ Calls (.call c0 j0) (armed none none)
    ∧ ¬ Calls (.call c0 { j0 with inv := true }) (armed none none) :=
  ⟨by decide +kernel, by decide +kernel, ⟨fun _ => rfl, fun _ => trivial⟩, fun h => by cases h.1 trivial⟩

theorem witness_LegalInstructionsComplete :
    let s := dispatchStart 0x00050456
    s.client.busPending = .idle ∧ s.pcs.afterNextPC = none ∧ s.run.dieRequest = false
    ∧ (cStream.streams = true ∧ (Instr.aluAdd cStream fM2).isDispatch = false ∧ fM2.dest.starts = false)
    ∧ (s.files.amem.read (tableIndex cDispatch dDispatch (mValue cDispatch s) (afterFetch cDispatch s))).toNat / 2 ^ 16 % 8 < 6
    ∧ (macroWord (afterFetch c0 s)).toNat / 2 ^ 16 % 8 < 6 := by decide +kernel

/-- A read and a stream read, unanswered, acknowledged and in error; a write; and nobody's transaction. -/
theorem witness_BusServiceFollowsTheCells :
    (∀ p ∈ [BusPending.dataRead, .streamRead, .dataWrite], ∀ ack ∈ [true, false], ∀ error ∈ [true, false],
      (owned p ack error).client.busPending ≠ .idle ∧ (owned p ack error).bus.busy = true
        ∧ (owned p ack error).bus.master = (owned p ack error).client.busID.val)
    ∧ base.client.busPending = .idle := by decide +kernel

theorem witness_SpyCycleExecutesNothing :
    ∀ off ∈ [0, 0xFF], spySelected (atStep3 (asked .readWord (BitVec.ofNat 32 (0xF0000000 + off)) 0 base)) = true := by decide +kernel

theorem witness_SpyReadsAndWritesFollowTheRegisterMap :
    (∀ n ∈ [0x00, 0x04, 0x08, 0x0C, 0x10, 0x14, 0x18, 0x1C, 0x20, 0x24, 0x28, 0x2C, 0x30, 0x34, 0x38, 0x3C, 0x40],
      (BitVec.ofNat 8 n).toNat = n)
    ∧ 0x44 ≤ (0xFF#8).toNat ∧ 0x40 ≤ (0x40#8).toNat := by decide +kernel

theorem witness_SpyByteLanes : ∀ k ∈ [BusKind.readWord, .readByte, .writeWord, .writeByte], ∀ off ∈ [0, 3, 0x3F, 0xFF],
    let s := asked k (BitVec.ofNat 32 (0xF0000000 + off)) 0x12345678 base
    spySelected s = true ∧ s.bus.address.toNat = (0xF0 + s.client.busID.val) * 2 ^ 24 + off ∧ s.bus.kind = k := by decide +kernel

/-- Writes of 0xF over 0 and of 0 over 0xF: every edge; with and without a die-request. -/
theorem witness_ProcessorModeEdges :
    (∀ k, k < 4 → base.modes.procMode.getLsbD k = false ∧ (0xF : Word).getLsbD k = true)
    ∧ (∀ k, k < 4 → (0xF : Word).getLsbD k = true ∧ (0 : Word).getLsbD k = false)
    ∧ base.run.dieRequest = false ∧ (raiseDie base).run.dieRequest = true := by decide +kernel

theorem witness_DieRequestIsTerminal : Dead (raiseDie base) ∧ NoInitialize (raiseDie base) :=
  ⟨by decide +kernel, fun _ _ h => by cases h⟩

/-- A running state with memory, an interrupt pending and a map, and the step it takes. -/
def invStart : State :=
  { dispatchStart 0x000B0456 with intr := { status := [(3, 1), (255, 1)], pending := 2, vector := 3 } }

theorem witness_EveryStepKeepsTheInvariant : State.Inv invStart := by decide +kernel

theorem witness_step_answers : nexts (step invStart) = true
    ∧ NoInitialize invStart ∧ spySelected (atStep3 invStart) = false :=
  ⟨by decide +kernel, fun _ _ h => (by cases h), by decide +kernel⟩

/-! ## How a program comes to run: loading through SPY (47_spy R469, log 16) -/

/-- One word write into the SPY window, seen by one cycle. -/
def spyWriteCells (offset : BitVec 32) (x : Word) : List PlatformEvent :=
  [.cells { busy := true, ack := false, error := false, master := 7, kind := .writeWord, address := 0xF0000000 + offset, data := x }]

/-- R469's first five writes from reset leave slot 0 loaded. -/
theorem test_load_through_spy :
    (match Host.Core.run core 4 { State.reset with inputs := [spyWriteCells 0x08 0, spyWriteCells 0x14 0,
        spyWriteCells 0x0C 0x30020C80, spyWriteCells 0x10 0] } with
      | .next t => readCram t 0 == 0x00000030020C80 && t.run.halted
      | .fault _ => false
      | .refused _ => false) = true := by decide +kernel

end Sys2Proof.Tests
end

section
/-! # What no cycle writes

For O9 and O55. The dispatch memory `store.mid`, the open parameters and the platform's list of ticks are
written by no operation of the engine (10_state R30; log 5, log 7). `kept` names the three together, each
operation has one lemma saying it keeps them, and each part of a cycle keeps them whether it goes on or dies. -/

namespace Sys2Proof.Machine

/-- The parts of a state that no operation of a cycle writes: the dispatch memory `mid`, the open parameters
and what the platform does in the coming ticks. -/
def kept (s : State) : Cells 32 × Config × List (List PlatformEvent) := (s.store.mid, s.cfg, s.inputs)

theorem kept_eq_iff (s : State) (mid : Cells 32) (cfg : Config) (inputs : List (List PlatformEvent)) :
    kept s = (mid, cfg, inputs) ↔ s.store.mid = mid ∧ s.cfg = cfg ∧ s.inputs = inputs := by
  simp [kept]

/-- A part of a cycle begun in `s` keeps `kept s`, whether it goes on (in the state `out` finds in its value)
or dies. -/
def Flow.Keeps {α : Type} (out : α → State) (s : State) : Flow α → Prop
  | .go a => kept (out a) = kept s
  | .die _ t => kept t = kept s

/-- An outcome is a next state that keeps `kept s`. -/
def CompletesKeeping (s : State) (x : Host.Outcome State Fault Refusal) : Prop :=
  ∃ t, x = .next t ∧ kept t = kept s

theorem Flow.Keeps.bind {α β : Type} {out : α → State} {out' : β → State} {s : State} {x : Flow α}
    {f : α → Flow β} (hx : x.Keeps out s) (hf : ∀ a, (f a).Keeps out' (out a)) : (x.bind f).Keeps out' s := by
  cases x with
  | die k t => exact hx
  | go a =>
    have ha : kept (out a) = kept s := hx
    have hfa := hf a
    rw [Flow.bind_go]
    cases hb : f a <;> rw [hb] at hfa <;> exact Eq.trans hfa ha

theorem Flow.Keeps.of_kept_eq {α : Type} {out : α → State} {s t : State} {x : Flow α}
    (hx : x.Keeps out t) (h : kept t = kept s) : x.Keeps out s := by
  cases x <;> exact Eq.trans hx h

theorem CompletesKeeping.of_kept_eq {s t : State} {x : Host.Outcome State Fault Refusal}
    (hx : CompletesKeeping t x) (h : kept t = kept s) : CompletesKeeping s x := by
  obtain ⟨u, hu, hk⟩ := hx
  exact ⟨u, hu, hk.trans h⟩

/-- An operation whose frame lemma speaks of both its answers keeps what that frame keeps. -/
theorem Flow.keeps_of_frame {s : State} {x : Flow State}
    (h : ∀ t, (x = .go t ∨ ∃ k, x = .die k t) → kept t = kept s) : x.Keeps id s := by
  cases x with
  | go t => exact h t (.inl rfl)
  | die k t => exact h t (.inr ⟨k, rfl⟩)

/-- A cycle that keeps them ends in a next state that does: taking `Die` writes the run state alone. -/
theorem Flow.Keeps.finish {s : State} {x : Flow State} (hx : x.Keeps id s) :
    CompletesKeeping s (Machine.finish x) := by
  cases x with
  | go t => exact ⟨t, rfl, hx⟩
  | die k t => exact ⟨raiseDie t, rfl, hx⟩

/-! ## Operand fetch -/

theorem startAccess_keeps (v : Word) (kind : AccessKind) (force : Bool) (pend : BusPending) (s : State) :
    (startAccess v kind force pend s).Keeps id s :=
  Flow.keeps_of_frame fun t ht => (congrArg kept (startAccess_frame v kind force pend s t ht).1).trans rfl

theorem streamStep_keeps (advance : Bool) (s : State) : (streamStep advance s).Keeps id s := by
  cases advance with
  | false => rfl
  | true =>
    rw [streamStep_true]
    exact (startAccess_keeps _ _ _ _ s).bind fun t => rfl

theorem mOperand_keeps (src : MSource) (s : State) : (mOperand src s).Keeps Prod.snd s := by
  cases hx : mOperand src s with
  | go p => exact (congrArg kept (mOperand_frame src s p.2 (.inl ⟨p.1, hx⟩)).1).trans rfl
  | die k t => exact (congrArg kept (mOperand_frame src s t (.inr ⟨k, hx⟩)).1).trans rfl

theorem fetchOperands_keeps (c : Common) (s : State) : (fetchOperands c s).Keeps (fun p => p.2.2) s :=
  (streamStep_keeps _ s).bind fun s6 => (mOperand_keeps c.mSrc s6).bind fun _ => rfl

/-! ## Writeback and transfers -/

theorem funcDest_keeps (f : FuncDest) (o : Word) (s : State) : (funcDest f o s).Keeps id s := by
  cases f
  case vmaStartRead | vmaStartWrite | vmaStartReadForce | vmaStartWriteForce =>
    exact startAccess_keeps _ _ _ _ s
  case interruptClear => simp [funcDest, Flow.Keeps, kept]
  all_goals rfl

theorem writeMReg_kept (m : BitVec 6) (v : Word) (s : State) : kept (writeMReg m v s) = kept s := by
  simp [kept]

theorem writeback_keeps (d : Dest) (o : Word) (s : State) : (writeback d o s).Keeps id s := by
  cases d with
  | a addr => rfl
  | func f m =>
    rw [writeback_func]
    exact (funcDest_keeps f o s).bind fun t => writeMReg_kept m o t

theorem transfer_keeps (tr : Transfer) (target : MicroAddr) (lpc : Bool) (s : State) :
    (transfer tr target lpc s).Keeps id s :=
  Flow.keeps_of_frame fun t ht => (congrArg kept (transfer_frame tr target lpc s t ht)).trans rfl

theorem applyDispatchWord_keeps (w m : Word) (lpc : Bool) (s : State) :
    (applyDispatchWord w m lpc s).Keeps id s := by
  unfold applyDispatchWord
  split
  · rfl
  next tr _ =>
    refine Flow.Keeps.bind (out := id) ?_ fun t => transfer_keeps tr _ lpc t
    split
    · exact startAccess_keeps _ _ _ _ s
    · rfl

/-! ## The instructions, format by format -/

theorem runAlu_completes (op : AluOp) (c : Common) (f : AluFields) (s : State) :
    CompletesKeeping s (runAlu op c f s) := by
  refine ((fetchOperands_keeps c s).bind ?_).finish
  rintro ⟨a, m, s7⟩
  dsimp only
  split
  · rfl
  · exact (writeback_keeps _ _ s7).bind fun _ => rfl

theorem runByte_completes (rsrc rmask : Bool) (c : Common) (f : ByteFields) (s : State) :
    CompletesKeeping s (runByte rsrc rmask c f s) := by
  refine ((fetchOperands_keeps c s).bind ?_).finish
  rintro ⟨a, m, s7⟩
  exact (writeback_keeps _ _ s7).bind fun _ => rfl

theorem runJump_completes (tr : Transfer) (c : Common) (f : JumpFields) (s : State) :
    CompletesKeeping s (runJump tr c f s) := by
  refine ((fetchOperands_keeps c s).bind ?_).finish
  rintro ⟨a, m, s7⟩
  dsimp only
  split
  · rfl
  · refine Flow.Keeps.bind (out := id) ?_ fun _ => rfl
    split
    · exact transfer_keeps _ _ _ s7
    · rfl

theorem latchConstant_kept (k : BitVec 10) (s : State) : kept (latchConstant k s) = kept s := rfl

theorem runDispatch_completes (pick : Word → State → Word × State)
    (hpick : ∀ m t, kept (pick m t).2 = kept t) (c : Common) (f : DispatchFields) (s : State) :
    CompletesKeeping s (runDispatch pick c f s) := by
  refine ((fetchOperands_keeps c s).bind ?_).finish
  rintro ⟨a, m, s7⟩
  have hword : kept (pick m (latchConstant f.dconst s7)).2 = kept s7 :=
    (hpick m _).trans (latchConstant_kept f.dconst s7)
  exact ((applyDispatchWord_keeps _ m f.lpc _).of_kept_eq hword).bind fun _ => rfl

theorem execDispatch_completes (c : Common) (f : DispatchFields) (s : State) :
    CompletesKeeping s (execDispatch c f s) := by
  unfold execDispatch
  exact runDispatch_completes _ (fun _ _ => rfl) c f s

/-- `DISPATCH MIR` reads the dispatch memory and writes only its countdown stall. -/
theorem execDispatchMir_completes (c : Common) (f : DispatchFields) (s : State) :
    CompletesKeeping s (execDispatchMir c f s) := by
  unfold execDispatchMir
  exact runDispatch_completes _ (fun _ _ => rfl) c f s

/-- Every instruction completes with a next state that keeps the three parts. -/
theorem exec_completes (i : Instr) (s : State) : CompletesKeeping s (exec i s) := by
  cases i
  case byteLow | byteSeldep | byteLdb | byteDpb => exact runByte_completes _ _ _ _ s
  case jumpXctNext | jump | callXctNext | call | retXctNext | ret => exact runJump_completes _ _ _ s
  case dispatch => exact execDispatch_completes _ _ s
  case dispatchMir => exact execDispatchMir_completes _ _ s
  all_goals exact runAlu_completes _ _ _ s

/-- A rejected word completes too: its `Die` is a next state (60_exceptions R490). -/
theorem execRejected_completes (r : Reject) (c : Common) (s : State) :
    CompletesKeeping s (execRejected r c s) :=
  Flow.Keeps.finish ((fetchOperands_keeps c s).bind fun _ => rfl)

theorem execWord_completes (s : State) : CompletesKeeping s (execWord s) := by
  unfold execWord
  split
  · exact exec_completes _ s
  · exact execRejected_completes _ _ s

/-! ## The cycle -/

theorem serveBus_kept (s : State) : kept (serveBus s) = kept s := by
  simp [kept, serveBus]

theorem acknowledge_kept (s : State) : kept (acknowledge s) = kept s := rfl

theorem spyRespond_kept (s : State) : kept (spyRespond s) = kept s := by
  have hwrite : ∀ r x, kept (spyWrite r x s) = kept s := fun r x => (congrArg kept (spyWrite_frame r x s)).trans rfl
  unfold spyRespond
  dsimp only
  split
  case h_1 | h_2 => simp [kept]
  case h_3 | h_4 => exact (acknowledge_kept _).trans (hwrite _ _)

theorem tickPjan_keeps (s : State) : (tickPjan s).Keeps id s := by
  unfold tickPjan
  split
  · rfl
  · rw [deferredReturn_eq]
    split <;> rfl
  · rfl

/-- Consuming a stall changes the stall flags alone. -/
theorem consumeStall_frame {s t : State} (h : consumeStall s = some t) : t = { s with stalls := t.stalls } := by
  unfold consumeStall at h
  repeat' split at h
  all_goals cases h
  all_goals rfl

theorem fetchNext_kept (s : State) : kept (fetchNext s) = kept s := by
  simp [kept]

/-- Steps 4 to 11: PJAN dies, or a stall is consumed, or an instruction executes. -/
theorem runCycle_completes (s : State) : CompletesKeeping s (runCycle s) := by
  have hpjan := tickPjan_keeps s
  unfold runCycle
  cases ht : tickPjan s with
  | die k t =>
    rw [ht] at hpjan
    exact ⟨raiseDie t, rfl, hpjan⟩
  | go t =>
    rw [ht] at hpjan
    refine CompletesKeeping.of_kept_eq ?_ hpjan
    dsimp only
    cases hc : consumeStall t with
    | some u => exact ⟨u, rfl, (congrArg kept (consumeStall_frame hc)).trans rfl⟩
    | none => exact (execWord_completes _).of_kept_eq (fetchNext_kept t)

theorem clockPulse_completes (s : State) : CompletesKeeping s (clockPulse s) := by
  refine CompletesKeeping.of_kept_eq ?_ (serveBus_kept s)
  unfold clockPulse
  dsimp only
  split
  · exact ⟨_, rfl, spyRespond_kept _⟩
  split
  · exact ⟨_, rfl, rfl⟩
  split
  · exact ⟨_, rfl, rfl⟩
  · exact runCycle_completes _

/-! ## The platform's tick -/

theorem applyEvent_kept (e : PlatformEvent) (s : State) : kept (applyEvent e s) = kept s := by
  cases e with
  | reset busID => rfl
  | grant =>
    unfold applyEvent
    dsimp only
    split <;> rfl
  | cells b => rfl

theorem applyEvents_kept (es : List PlatformEvent) (s : State) : kept (applyEvents es s) = kept s := by
  induction es generalizing s with
  | nil => rfl
  | cons e es ih => exact (ih (applyEvent e s)).trans (applyEvent_kept e s)

/-- The platform's tick takes one entry of its list and leaves the rest of `kept`. -/
theorem platformTick_kept (s : State) : kept (platformTick s) = (s.store.mid, s.cfg, s.inputs.tail) := by
  unfold platformTick
  split
  next h => simp [kept, h]
  next es rest h =>
    rw [applyEvents_kept, h]
    rfl

/-- Everything a step does to the three parts: it answers a next state in which only the platform's list
has changed, by its first entry. -/
theorem step_completes (s : State) :
    ∃ t, step s = .next t ∧ t.store.mid = s.store.mid ∧ t.cfg = s.cfg ∧ t.inputs = s.inputs.tail := by
  obtain ⟨t, ht, hk⟩ := clockPulse_completes (platformTick s)
  exact ⟨t, ht, (kept_eq_iff t _ _ _).mp (hk.trans (platformTick_kept s))⟩

/-- Settles O9: every path of a cycle ends in a next state, and only the platform's tick touches its list. -/
theorem everyStepCompletes : Obligations.EveryStepCompletes := by
  intro s
  obtain ⟨t, ht, -, -, hinputs⟩ := step_completes s
  exact ⟨t, ht, hinputs⟩

/-- Settles O55, by `step_completes`: the step's one answer keeps the memory and the parameters. -/
theorem noStepWritesMidOrParameters : Obligations.NoStepWritesMidOrParameters := by
  intro s t ht
  obtain ⟨u, hu, hmid, hcfg, -⟩ := step_completes s
  obtain rfl : t = u := Host.Outcome.next.inj (ht.symm.trans hu)
  exact ⟨hmid, hcfg⟩

end Sys2Proof.Machine
end

section
/-! # The write of PROCESSOR_MODE

For O50 and O52. Each of the four blocks of 47_spy R465 touches one group of the state, so the whole write is
known from what it does to the run state and to the interrupt state. -/

namespace Sys2Proof.Machine

theorem risingEdge_iff (old new : Word) (k : Nat) :
    risingEdge old new k = true ↔ old.getLsbD k = false ∧ new.getLsbD k = true := by
  simp [risingEdge]

theorem fallingEdge_iff (old new : Word) (k : Nat) :
    fallingEdge old new k = true ↔ old.getLsbD k = true ∧ new.getLsbD k = false := by
  simp [fallingEdge]

/-- A bit does not rise and fall in one write. -/
theorem fallingEdge_of_risingEdge {old new : Word} {k : Nat} (h : risingEdge old new k = true) :
    fallingEdge old new k = false := by
  simp [fallingEdge, (risingEdge_iff old new k).mp h]

/-! ## The blocks, each on the group it touches -/

theorem debugClockEdge_eq (old new : Word) (s : State) :
    debugClockEdge old new s = { s with run := (debugClockEdge old new s).run } := by
  unfold debugClockEdge
  split <;> rfl

theorem resetCounterEdge_eq (old new : Word) (s : State) :
    resetCounterEdge old new s = { s with intr := (resetCounterEdge old new s).intr } := by
  unfold resetCounterEdge
  split <;> rfl

theorem runEdge_eq (old new : Word) (s : State) :
    runEdge old new s = { s with run := (runEdge old new s).run } := by
  unfold runEdge
  (repeat' split) <;> rfl

theorem debugClockEdge_run (old new : Word) (s : State) :
    (debugClockEdge old new s).run = if risingEdge old new 0 then (restart true s).run else s.run := by
  unfold debugClockEdge
  split <;> rfl

theorem resetCounterEdge_intr (old new : Word) (s : State) :
    (resetCounterEdge old new s).intr =
      if risingEdge old new 1 then { s.intr with pending := 0, status := [] } else s.intr := by
  unfold resetCounterEdge
  split <;> rfl

theorem runEdge_run (old new : Word) (s : State) :
    (runEdge old new s).run =
      if risingEdge old new 3 then (restart false s).run
      else if fallingEdge old new 3 then { s.run with halted := true } else s.run := by
  unfold runEdge
  (repeat' split) <;> rfl

/-! ## The write -/

/-- The write changes the register, the forced hold, the run state and the interrupt state. -/
theorem writeProcMode_eq (x : Word) (s : State) :
    writeProcMode x s =
      { s with modes := { s.modes with procMode := x }, stalls := { s.stalls with forceHold := x.getLsbD 2 },
               run := (writeProcMode x s).run, intr := (writeProcMode x s).intr } := by
  unfold writeProcMode
  dsimp only
  rw [runEdge_eq, followForceHold, resetCounterEdge_eq, debugClockEdge_eq]

theorem writeProcMode_intr (x : Word) (s : State) :
    (writeProcMode x s).intr =
      if risingEdge s.modes.procMode x 1 then { s.intr with pending := 0, status := [] } else s.intr := by
  simp [writeProcMode, resetCounterEdge_intr]

/-- The run state after the first and the fourth block. -/
theorem writeProcMode_run (x : Word) (s : State) :
    (writeProcMode x s).run =
      (runEdge s.modes.procMode x (debugClockEdge s.modes.procMode x s)).run := by
  simp [writeProcMode, runEdge_run, debugClockEdge_run]

theorem writeProcMode_dieRequest (x : Word) (s : State) :
    (writeProcMode x s).run.dieRequest = s.run.dieRequest := by
  rw [writeProcMode_run, runEdge_run, restart_run, debugClockEdge_run, restart_run]
  (repeat' split) <;> rfl

theorem writeProcMode_singleStepMode (x : Word) (s : State) :
    (writeProcMode x s).run.singleStepMode =
      if risingEdge s.modes.procMode x 3 then false
      else if risingEdge s.modes.procMode x 0 then true else s.run.singleStepMode := by
  rw [writeProcMode_run, runEdge_run, restart_run, debugClockEdge_run, restart_run]
  (repeat' split) <;> rfl

/-- An engine with no die-request restarts on a rise of `RUN` or of `DEBUG_CLOCK`; a fall of `RUN`, which
comes last, halts it. -/
theorem writeProcMode_halted (x : Word) (s : State) :
    (writeProcMode x s).run.halted =
      if fallingEdge s.modes.procMode x 3 then true
      else if (risingEdge s.modes.procMode x 0 ∨ risingEdge s.modes.procMode x 3) ∧ s.run.dieRequest = false
        then false else s.run.halted := by
  rw [writeProcMode_run, runEdge_run, restart_run, debugClockEdge_run, restart_run]
  by_cases h3 : risingEdge s.modes.procMode x 3 = true
  · have hfall := fallingEdge_of_risingEdge h3
    by_cases h0 : risingEdge s.modes.procMode x 0 = true <;> cases hdie : s.run.dieRequest <;>
      simp [h3, hfall, h0, hdie]
  · by_cases h0 : risingEdge s.modes.procMode x 0 = true <;>
      by_cases hfall : fallingEdge s.modes.procMode x 3 = true <;> simp [h3, hfall, h0]

/-- Settles O50, block by block: which edge each field of the run state and of the interrupt state follows. -/
theorem processorModeEdges : Obligations.ProcessorModeEdges := by
  intro s x t rises falls
  have hrises : ∀ k, risingEdge s.modes.procMode x k = true ↔ rises k := risingEdge_iff _ x
  have hfalls : ∀ k, fallingEdge s.modes.procMode x k = true ↔ falls k := fallingEdge_iff _ x
  have hsingle : t.run.singleStepMode = _ := writeProcMode_singleStepMode x s
  have hhalted : t.run.halted = _ := writeProcMode_halted x s
  have hintr : t.intr = _ := writeProcMode_intr x s
  simp only [hrises, hfalls] at hsingle hhalted hintr
  refine ⟨congrArg Modes.procMode (writeProcMode_modes x s),
    congrArg Stalls.forceHold (writeProcMode_stalls x s), writeProcMode_dieRequest x s, fun h3 => ?single_run, fun h0 h3 => ?single_step, fun h0 h3 => ?single_kept,
    fun hf => ?halt, fun hf hr hdie => ?restart, fun hf hr => ?halted_kept, fun h1 => ?intr_reset,
    fun h1 => ?intr_kept, writeProcMode_eq x s⟩
  case single_run => rw [hsingle, if_pos h3]
  case single_step => rw [hsingle, if_neg h3, if_pos h0]
  case single_kept => rw [hsingle, if_neg h3, if_neg h0]
  case halt => rw [hhalted, if_pos hf]
  case restart => rw [hhalted, if_neg hf, if_pos ⟨hr, hdie⟩]
  case halted_kept =>
    rw [hhalted, if_neg hf, if_neg]
    rintro ⟨hrise, hdie⟩
    rcases hr with ⟨h0, h3⟩ | hdead
    · exact hrise.elim h0 h3
    · simp [hdead] at hdie
  case intr_reset =>
    rw [hintr, if_pos h1]
    exact ⟨rfl, fun _ => rfl, rfl⟩
  case intr_kept => rw [hintr, if_neg h1]

end Sys2Proof.Machine
end

section
/-! # What a cycle is made of

For O52 and O56. `CycleAct` lists the acts steps 4 to 11 of a cycle are built from, and `runCycle_acts` says that
a cycle is a chain of them, whichever instruction it executes and wherever it dies. A fact about every cycle is
then one fact per act. -/

namespace Sys2Proof.Machine

/-- A part of a cycle leaves the state `t`, going on or dying. -/
abbrev Flow.Leaves (x : Flow State) (t : State) : Prop := x = .go t ∨ ∃ k, x = .die k t

/-- The acts of steps 4 to 11 (40_cycle R180): what one of them makes of a state `s`. -/
inductive CycleAct (s : State) : State → Prop
  /-- PJAN ticks (44_microstack_pjan R386). -/
  | tick (n : Option (Fin 3)) : CycleAct s { s with pcs := { s.pcs with popjCountdown := n } }
  /-- PJAN fires (R387). -/
  | fire {t : State} (h : (deferredReturn s).Leaves t) : CycleAct s t
  /-- A stall flag is consumed or armed; the forced hold is none of them (40_cycle R189, 46_dispatch R440). -/
  | stall (x : Stalls) (hx : x.forceHold = s.stalls.forceHold) : CycleAct s { s with stalls := x }
  /-- Step 5. -/
  | fetchNext : CycleAct s (fetchNext s)
  /-- A memory operation (20_memory R113). -/
  | access (v : Word) (kind : AccessKind) (force : Bool) (pend : BusPending) {t : State}
      (h : (startAccess v kind force pend s).Leaves t) : CycleAct s t
  /-- The instruction-stream step counts `LC` (40_cycle R198). -/
  | countLc (lc : Word) : CycleAct s { s with stream := { s.stream with lc := lc } }
  /-- Step 7. -/
  | source (src : MSource) {t : State}
      (h : (∃ v, mOperand src s = .go (v, t)) ∨ ∃ k, mOperand src s = .die k t) : CycleAct s t
  /-- The Q update or the dispatch constant (42_alu R345, 46_dispatch R431). -/
  | data (d : DataRegs) : CycleAct s { s with data := d }
  /-- Step 9, the functional half of a destination. -/
  | funcDest (f : FuncDest) (o : Word) {t : State} (h : (funcDest f o s).Leaves t) : CycleAct s t
  /-- Step 9, an A-memory word. -/
  | storeA (a : BitVec 12) (o : Word) : CycleAct s (writeA a o s)
  /-- Step 9, an M register. -/
  | storeM (m : BitVec 6) (o : Word) : CycleAct s (writeMReg m o s)
  /-- A control transfer (45_jump R411 to R416). -/
  | transfer (tr : Transfer) (target : MicroAddr) (lpc : Bool) {t : State}
      (h : (transfer tr target lpc s).Leaves t) : CycleAct s t
  /-- Step 11. -/
  | endOfCycle (c : Common) : CycleAct s (endOfCycle c s)
  /-- Taking `Die` (60_exceptions R490). -/
  | die : CycleAct s (raiseDie s)

/-- A chain of acts. -/
inductive Acts (s : State) : State → Prop
  | refl : Acts s s
  | tail {t u : State} (h : Acts s t) (ha : CycleAct t u) : Acts s u

theorem CycleAct.acts {s t : State} (h : CycleAct s t) : Acts s t := .tail .refl h

theorem Acts.trans {s t u : State} (h : Acts s t) (h' : Acts t u) : Acts s u := by
  induction h' with
  | refl => exact h
  | tail _ ha ih => exact ih.tail ha

/-- What every act keeps, a chain of acts keeps. -/
theorem Acts.keeps {P : State → Prop} (hP : ∀ {s t}, CycleAct s t → P s → P t) {s t : State}
    (h : Acts s t) (hs : P s) : P t := by
  induction h with
  | refl => exact hs
  | tail _ hact ih => exact hP hact ih

/-- A part of a cycle begun in `s` is a chain of acts, whether it goes on (in the state `out` finds in its
value) or dies. -/
def Flow.ActsFrom {α : Type} (out : α → State) (s : State) : Flow α → Prop
  | .go a => Acts s (out a)
  | .die _ t => Acts s t

/-- An outcome is a next state that a chain of acts leads to. -/
def CompletesByActs (s : State) (x : Host.Outcome State Fault Refusal) : Prop :=
  ∃ t, x = .next t ∧ Acts s t

theorem Flow.ActsFrom.after {α : Type} {out : α → State} {s t : State} {x : Flow α}
    (hx : x.ActsFrom out t) (h : Acts s t) : x.ActsFrom out s := by
  cases x <;> exact h.trans hx

theorem Flow.ActsFrom.bind {α β : Type} {out : α → State} {out' : β → State} {s : State} {x : Flow α}
    {f : α → Flow β} (hx : x.ActsFrom out s) (hf : ∀ a, (f a).ActsFrom out' (out a)) :
    (x.bind f).ActsFrom out' s := by
  cases x with
  | go a => exact (hf a).after hx
  | die k t => exact hx

/-- A part of a cycle that is one act. -/
theorem Flow.actsFrom_of_act {s : State} {x : Flow State} (h : ∀ t, x.Leaves t → CycleAct s t) :
    x.ActsFrom id s := by
  cases x with
  | go t => exact (h t (.inl rfl)).acts
  | die k t => exact (h t (.inr ⟨k, rfl⟩)).acts

theorem Flow.ActsFrom.finish {s : State} {x : Flow State} (hx : x.ActsFrom id s) :
    CompletesByActs s (Machine.finish x) := by
  cases x with
  | go t => exact ⟨t, rfl, hx⟩
  | die k t => exact ⟨raiseDie t, rfl, hx.tail .die⟩

theorem CompletesByActs.after {s t : State} {x : Host.Outcome State Fault Refusal}
    (hx : CompletesByActs t x) (h : Acts s t) : CompletesByActs s x := by
  obtain ⟨u, hu, ha⟩ := hx
  exact ⟨u, hu, h.trans ha⟩

/-! ## The parts of a cycle -/

theorem startAccess_acts (v : Word) (kind : AccessKind) (force : Bool) (pend : BusPending) (s : State) :
    (startAccess v kind force pend s).ActsFrom id s :=
  Flow.actsFrom_of_act fun _ => .access v kind force pend

theorem streamStep_acts (advance : Bool) (s : State) : (streamStep advance s).ActsFrom id s := by
  cases advance with
  | false => exact .refl
  | true =>
    rw [streamStep_true]
    exact (startAccess_acts _ _ _ _ s).bind fun t => (CycleAct.countLc _).acts

theorem mOperand_acts (src : MSource) (s : State) : (mOperand src s).ActsFrom Prod.snd s := by
  cases hx : mOperand src s with
  | go p => exact (CycleAct.source src (.inl ⟨p.1, hx⟩)).acts
  | die k t => exact (CycleAct.source src (.inr ⟨k, hx⟩)).acts

theorem fetchOperands_acts (c : Common) (s : State) : (fetchOperands c s).ActsFrom (fun p => p.2.2) s :=
  (streamStep_acts _ s).bind fun s6 => (mOperand_acts c.mSrc s6).bind fun _ => .refl

theorem funcDest_acts (f : FuncDest) (o : Word) (s : State) : (funcDest f o s).ActsFrom id s :=
  Flow.actsFrom_of_act fun _ => .funcDest f o

theorem writeback_acts (d : Dest) (o : Word) (s : State) : (writeback d o s).ActsFrom id s := by
  cases d with
  | a addr => exact (CycleAct.storeA addr o).acts
  | func f m =>
    rw [writeback_func]
    exact (funcDest_acts f o s).bind fun t => (CycleAct.storeM m o).acts

theorem transfer_acts (tr : Transfer) (target : MicroAddr) (lpc : Bool) (s : State) :
    (transfer tr target lpc s).ActsFrom id s :=
  Flow.actsFrom_of_act fun _ => .transfer tr target lpc

theorem applyDispatchWord_acts (w m : Word) (lpc : Bool) (s : State) :
    (applyDispatchWord w m lpc s).ActsFrom id s := by
  unfold applyDispatchWord
  split
  · exact .refl
  next tr _ =>
    refine Flow.ActsFrom.bind (out := id) ?_ fun t => transfer_acts tr _ lpc t
    split
    · exact startAccess_acts _ _ _ _ s
    · exact .refl

theorem endOfCycle_acts (c : Common) (s : State) : (Flow.go (endOfCycle c s)).ActsFrom id s :=
  (CycleAct.endOfCycle c).acts

/-! ## The instructions, format by format -/

theorem runAlu_acts (op : AluOp) (c : Common) (f : AluFields) (s : State) :
    CompletesByActs s (runAlu op c f s) := by
  refine ((fetchOperands_acts c s).bind ?_).finish
  rintro ⟨a, m, s7⟩
  dsimp only
  split
  · exact .refl
  · exact (writeback_acts _ _ s7).bind fun _ => (endOfCycle_acts c _).after (CycleAct.data _).acts

theorem runByte_acts (rsrc rmask : Bool) (c : Common) (f : ByteFields) (s : State) :
    CompletesByActs s (runByte rsrc rmask c f s) := by
  refine ((fetchOperands_acts c s).bind ?_).finish
  rintro ⟨a, m, s7⟩
  exact (writeback_acts _ _ s7).bind fun _ => endOfCycle_acts c _

theorem runJump_acts (tr : Transfer) (c : Common) (f : JumpFields) (s : State) :
    CompletesByActs s (runJump tr c f s) := by
  refine ((fetchOperands_acts c s).bind ?_).finish
  rintro ⟨a, m, s7⟩
  dsimp only
  split
  · exact .refl
  · refine Flow.ActsFrom.bind (out := id) ?_ fun _ => endOfCycle_acts c _
    split
    · exact transfer_acts _ _ _ s7
    · exact .refl

theorem runDispatch_acts (pick : Word → State → Word × State) (hpick : ∀ m t, Acts t (pick m t).2)
    (c : Common) (f : DispatchFields) (s : State) : CompletesByActs s (runDispatch pick c f s) := by
  refine ((fetchOperands_acts c s).bind ?_).finish
  rintro ⟨a, m, s7⟩
  have hword : Acts s7 (pick m (latchConstant f.dconst s7)).2 :=
    (CycleAct.data _).acts.trans (hpick m _)
  exact ((applyDispatchWord_acts _ m f.lpc _).after hword).bind fun _ => endOfCycle_acts c _

theorem execDispatch_acts (c : Common) (f : DispatchFields) (s : State) :
    CompletesByActs s (execDispatch c f s) := by
  unfold execDispatch
  exact runDispatch_acts _ (fun _ _ => .refl) c f s

theorem execDispatchMir_acts (c : Common) (f : DispatchFields) (s : State) :
    CompletesByActs s (execDispatchMir c f s) := by
  unfold execDispatchMir
  exact runDispatch_acts _ (fun _ _ => CycleAct.acts (.stall _ (by rfl))) c f s

theorem exec_acts (i : Instr) (s : State) : CompletesByActs s (exec i s) := by
  cases i
  case byteLow | byteSeldep | byteLdb | byteDpb => exact runByte_acts _ _ _ _ s
  case jumpXctNext | jump | callXctNext | call | retXctNext | ret => exact runJump_acts _ _ _ s
  case dispatch => exact execDispatch_acts _ _ s
  case dispatchMir => exact execDispatchMir_acts _ _ s
  all_goals exact runAlu_acts _ _ _ s

theorem execRejected_acts (r : Reject) (c : Common) (s : State) : CompletesByActs s (execRejected r c s) :=
  Flow.ActsFrom.finish ((fetchOperands_acts c s).bind fun _ => .refl)

theorem execWord_acts (s : State) : CompletesByActs s (execWord s) := by
  unfold execWord
  split
  · exact exec_acts _ s
  · exact execRejected_acts _ _ s

/-! ## The cycle -/

theorem tickPjan_acts (s : State) : (tickPjan s).ActsFrom id s := by
  unfold tickPjan
  split
  · exact .refl
  · exact Flow.actsFrom_of_act fun _ => .fire
  · exact (CycleAct.tick _).acts

/-- PJAN firing, going on or dying, moves the program counters and the stack pointer alone. -/
theorem deferredReturn_frame {s t : State} (h : (deferredReturn s).Leaves t) :
    t = { s with pcs := t.pcs, ustack := { s.ustack with ptr := t.ustack.ptr } } := by
  rw [deferredReturn_eq] at h
  split at h <;> rcases h with h | ⟨k, h⟩ <;> cases h <;> rfl

/-- Consuming a stall leaves the forced hold, which is none of the stalls it looks at. -/
theorem consumeStall_forceHold {s t : State} (h : consumeStall s = some t) :
    t.stalls.forceHold = s.stalls.forceHold := by
  unfold consumeStall at h
  repeat' split at h
  all_goals cases h
  all_goals rfl

theorem consumeStall_act {s t : State} (h : consumeStall s = some t) : CycleAct s t := by
  rw [consumeStall_frame h]
  exact .stall _ (consumeStall_forceHold h)

/-- Steps 4 to 11 are a chain of acts. -/
theorem runCycle_acts (s : State) : CompletesByActs s (runCycle s) := by
  have hpjan := tickPjan_acts s
  unfold runCycle
  cases ht : tickPjan s with
  | die k t =>
    rw [ht] at hpjan
    exact ⟨raiseDie t, rfl, hpjan.tail .die⟩
  | go t =>
    rw [ht] at hpjan
    refine CompletesByActs.after ?_ hpjan
    dsimp only
    cases hc : consumeStall t with
    | some u => exact ⟨u, rfl, (consumeStall_act hc).acts⟩
    | none => exact (execWord_acts _).after (CycleAct.fetchNext).acts

/-- Everything a `clockPulse` can do after its bus service: it serves SPY, or a chain of acts (an empty one
when the engine is halted or held) leads to the next state. -/
theorem clockPulse_cases {s t : State} (h : clockPulse s = .next t) :
    (spySelected (serveBus s) = true ∧ t = spyRespond (serveBus s))
      ∨ (spySelected (serveBus s) = false ∧ Acts (serveBus s) t) := by
  unfold clockPulse at h
  dsimp only at h
  split at h
  next hspy => exact .inl ⟨hspy, (Host.Outcome.next.inj h).symm⟩
  next hspy =>
    refine .inr ⟨Bool.eq_false_iff.mpr hspy, ?_⟩
    split at h
    · obtain rfl := Host.Outcome.next.inj h
      exact .refl
    split at h
    · obtain rfl := Host.Outcome.next.inj h
      exact .refl
    · obtain ⟨u, hu, ha⟩ := runCycle_acts (serveBus s)
      obtain rfl : u = t := Host.Outcome.next.inj (hu.symm.trans h)
      exact ha

end Sys2Proof.Machine
end

section
/-! # The registers SPY alone writes

For O56. `spyOwned` names the registers of 10_state R47 and R48 and SPY's own (47_spy R461, R464); no act of a
cycle writes one. -/

namespace Sys2Proof.Machine

/-- The Configuration and Processor-Mode registers, the timing RAM, the three SPY address registers, and the
forced hold. -/
def spyOwned (s : State) : Word × Word × Cells 32 × MicroAddr × BitVec 12 × BitVec 12 × Bool :=
  (s.modes.configReg, s.modes.procMode, s.spyUnit.tram, s.spyUnit.spyCramAddr, s.spyUnit.spyTramAddr,
    s.spyUnit.spyHistAddr, s.stalls.forceHold)

/-! ## The acts of a cycle -/

theorem deferredReturn_spyOwned {s t : State} (h : (deferredReturn s).Leaves t) : spyOwned t = spyOwned s := by
  rw [deferredReturn_frame h]
  rfl

theorem fetchNext_spyOwned (s : State) : spyOwned (fetchNext s) = spyOwned s := by
  simp [spyOwned, fetchNext]

theorem startAccess_spyOwned {v : Word} {kind : AccessKind} {force : Bool} {pend : BusPending} {s t : State}
    (h : (startAccess v kind force pend s).Leaves t) : spyOwned t = spyOwned s := by
  rw [(startAccess_frame v kind force pend s t h).1]
  rfl

theorem mOperand_spyOwned {src : MSource} {s t : State}
    (h : (∃ v, mOperand src s = .go (v, t)) ∨ ∃ k, mOperand src s = .die k t) : spyOwned t = spyOwned s := by
  rw [(mOperand_frame src s t h).1]
  rfl

theorem funcDest_spyOwned {f : FuncDest} {o : Word} {s t : State} (h : (funcDest f o s).Leaves t) :
    spyOwned t = spyOwned s := by
  cases f
  case vmaStartRead | vmaStartWrite | vmaStartReadForce | vmaStartWriteForce => exact startAccess_spyOwned h
  all_goals
    rcases h with h | ⟨k, h⟩ <;> cases h
  case interruptClear => simp [spyOwned]
  all_goals rfl

theorem writeMReg_spyOwned (m : BitVec 6) (v : Word) (s : State) : spyOwned (writeMReg m v s) = spyOwned s := by
  simp [spyOwned]

theorem transfer_spyOwned {tr : Transfer} {target : MicroAddr} {lpc : Bool} {s t : State}
    (h : (transfer tr target lpc s).Leaves t) : spyOwned t = spyOwned s := by
  rw [transfer_frame tr target lpc s t h]
  rfl

theorem CycleAct.spyOwned_eq {s t : State} (h : CycleAct s t) : spyOwned t = spyOwned s := by
  cases h with
  | tick | countLc | data | endOfCycle | die | storeA => rfl
  | stall x hx => simp [spyOwned, hx]
  | fire h => exact deferredReturn_spyOwned h
  | fetchNext => exact fetchNext_spyOwned s
  | access _ _ _ _ h => exact startAccess_spyOwned h
  | source _ h => exact mOperand_spyOwned h
  | funcDest _ _ h => exact funcDest_spyOwned h
  | storeM m o => exact writeMReg_spyOwned m o s
  | transfer _ _ _ h => exact transfer_spyOwned h

theorem Acts.spyOwned_eq {s t : State} (h : Acts s t) : spyOwned t = spyOwned s :=
  h.keeps (P := fun u => spyOwned u = spyOwned s) (fun ha hs => ha.spyOwned_eq.trans hs) rfl

/-! ## The platform and the bus service -/

theorem serveBus_spyOwned (s : State) : spyOwned (serveBus s) = spyOwned s := by
  simp [spyOwned, serveBus]

/-- A platform event other than a reset acts on the bus cells and the requests alone. -/
theorem applyEvent_spyOwned {e : PlatformEvent} (he : ∀ id, e ≠ .reset id) (s : State) :
    spyOwned (applyEvent e s) = spyOwned s := by
  cases e with
  | reset id => exact absurd rfl (he id)
  | grant =>
    unfold applyEvent
    dsimp only
    split <;> rfl
  | cells b => rfl

theorem applyEvents_spyOwned {es : List PlatformEvent} (hes : ∀ id, PlatformEvent.reset id ∉ es) (s : State) :
    spyOwned (applyEvents es s) = spyOwned s := by
  induction es generalizing s with
  | nil => rfl
  | cons e es ih =>
    simp only [List.mem_cons, not_or] at hes
    exact (ih (fun id => (hes id).2) _).trans (applyEvent_spyOwned (fun id he => (hes id).1 he.symm) s)

theorem platformTick_spyOwned {s : State} (h : NoInitialize s) : spyOwned (platformTick s) = spyOwned s := by
  unfold platformTick
  split
  · rfl
  next es rest hin => exact applyEvents_spyOwned (h es rest hin) _

/-- Settles O56: with no reset by the platform and no SPY request, a step is the bus service and a chain of
acts, none of which writes a register of SPY's. -/
theorem onlySpyWritesItsOwnRegisters : Obligations.OnlySpyWritesItsOwnRegisters := by
  intro s t hno hspy hstep
  have hstart : spyOwned (atStep3 s) = spyOwned s := (serveBus_spyOwned _).trans (platformTick_spyOwned hno)
  have howned : spyOwned t = spyOwned s := by
    rcases clockPulse_cases hstep with ⟨hsel, -⟩ | ⟨-, hacts⟩
    · exact absurd hsel (by simpa [atStep3] using hspy)
    · exact hacts.spyOwned_eq.trans hstart
  simpa only [spyOwned, Prod.mk.injEq] using howned

end Sys2Proof.Machine
end

section
/-! # The invariant

For O52 and O53. The invariant is the canonical form of the memories, which Sys2Proof/Laws/Memory.lean speaks of,
and five rules on registers, `RegistersWf`; the two are shown kept one by one. The one rule with
an argument behind it is the count of pending interrupts: `markPending` and `unmarkPending` change one status bit
and the count by one, and the 9-bit count does not wrap because there are 256 status bits. -/

namespace Sys2Proof.Machine

/-! ## The count of pending interrupts -/

/-- Two tests that differ at `v` alone, where the second holds: it selects one number more of those below `n`,
once `v` is among them. -/
theorem length_filter_range_of_differ_at {p q : Nat → Bool} {v : Nat} (hp : p v = false) (hq : q v = true)
    (hpq : ∀ i, i ≠ v → q i = p i) (n : Nat) :
    ((List.range n).filter q).length = ((List.range n).filter p).length + if v < n then 1 else 0 := by
  induction n with
  | zero => rfl
  | succ n ih =>
    rw [List.range_succ, List.filter_append, List.filter_append, List.length_append, List.length_append, ih]
    rcases Nat.lt_trichotomy v n with hlt | heq | hgt
    · have hn : q n = p n := hpq n (by omega)
      simp only [List.filter_cons, List.filter_nil, hn, if_pos hlt, if_pos (Nat.lt_succ_of_lt hlt)]
      omega
    · subst heq
      simp only [List.filter_cons, List.filter_nil, hp, hq, if_neg (Nat.lt_irrefl v), if_pos (Nat.lt_succ_self v)]
      rfl
    · have hn : q n = p n := hpq n (by omega)
      simp only [List.filter_cons, List.filter_nil, hn, if_neg (show ¬ v < n by omega),
        if_neg (show ¬ v < n + 1 by omega), Nat.add_zero]

/-- Status memories that differ at one vector alone, whose bit the second sets. -/
theorem pendingCount_of_set_at {status status' : Cells 1} (v : BitVec 8) (hclear : status.read v.toNat = 0)
    (hset : status'.read v.toNat = 1) (hrest : ∀ i, i ≠ v.toNat → status'.read i = status.read i) :
    pendingCount status' = pendingCount status + 1 := by
  have hcount := length_filter_range_of_differ_at (p := fun i => status.read i == 1#1)
    (q := fun i => status'.read i == 1#1) (beq_eq_false_iff_ne.mpr (by rw [hclear]; decide))
    (beq_iff_eq.mpr hset) (fun i hi => by rw [hrest i hi]) intVectors
  rwa [if_pos (show v.toNat < intVectors from v.isLt)] at hcount

theorem read_write_of_ne (status : Cells 1) {v : BitVec 8} (b : BitVec 1) {i : Nat} (hi : i ≠ v.toNat) :
    (status.write v.toNat b).read i = status.read i := by
  rw [Cells.read_write, if_neg (Ne.symm hi)]

theorem pendingCount_le (status : Cells 1) : pendingCount status ≤ intVectors :=
  Nat.le_trans (List.length_filter_le _ _) (Nat.le_of_eq List.length_range)

theorem pendingCount_write_one {status : Cells 1} {v : BitVec 8} (h : status.read v.toNat = 0) :
    pendingCount (status.write v.toNat 1) = pendingCount status + 1 :=
  pendingCount_of_set_at v h (by rw [Cells.read_write, if_pos rfl]) fun _ hi => read_write_of_ne status 1 hi

theorem pendingCount_write_zero {status : Cells 1} {v : BitVec 8} (h : status.read v.toNat = 1) :
    pendingCount (status.write v.toNat 0) + 1 = pendingCount status :=
  (pendingCount_of_set_at v (by rw [Cells.read_write, if_pos rfl]) h fun _ hi =>
    (read_write_of_ne status 0 hi).symm).symm

theorem pendingCount_nil : pendingCount [] = 0 := by decide

/-! ## The five rules on registers -/

/-- `intPending` is the number of set `intStatus` bits (10_state R39). -/
def Intr.Counted (i : Intr) : Prop := i.pending.toNat = pendingCount i.status

/-- A die-request stands with the engine halted (60_exceptions R490). -/
def Run.DieHalts (r : Run) : Prop := r.dieRequest = true → r.halted = true

/-- No overlay bits without a pending overlay (10_state R52). -/
def Overlay.EmptyUnlessPending (o : Overlay) : Prop := o.pending = false → o.low = 0 ∧ o.high = 0

/-- Byte mode exactly with a byte lane (20_memory R100). -/
def Vm.LaneMode (m : Vm) : Prop := m.byteMode = (m.byteSel != 0)

/-- The invariant without its memories. -/
def RegistersWf (s : State) : Prop :=
  s.intr.Counted ∧ s.run.DieHalts ∧ s.stalls.forceHold = s.modes.procMode.getLsbD 2
    ∧ s.overlay.EmptyUnlessPending ∧ s.vm.LaneMode

theorem inv_iff (s : State) : s.Inv ↔ s.memoriesWf = true ∧ RegistersWf s := .rfl

theorem reset_registersWf : RegistersWf State.reset := by
  unfold RegistersWf Intr.Counted Run.DieHalts Overlay.EmptyUnlessPending Vm.LaneMode
  decide

/-- Settles O53: the memories list nothing, the registers are 0. -/
theorem resetMeetsTheInvariant : Obligations.ResetMeetsTheInvariant :=
  (inv_iff _).mpr ⟨reset_memoriesWf, reset_registersWf⟩

/-! ## The interrupt state -/

theorem markPending_counted {s : State} {v : BitVec 8} (h : s.intr.Counted) (hv : intStatus s v = 0) :
    (markPending v s).intr.Counted := by
  have hcount := pendingCount_write_one hv
  have hbound := pendingCount_le (s.intr.status.write v.toNat 1)
  unfold Intr.Counted intVectors at *
  rw [markPending_intr, hcount, ← h]
  have hlt : s.intr.pending.toNat + 1 < 2 ^ 9 := by omega
  exact BitVec.toNat_add_of_lt hlt

theorem unmarkPending_counted {s : State} {v : BitVec 8} (h : s.intr.Counted) (hv : intStatus s v = 1) :
    (unmarkPending v s).intr.Counted := by
  have hcount := pendingCount_write_zero hv
  unfold Intr.Counted at *
  have hle : (1 : BitVec 9) ≤ s.intr.pending := BitVec.le_def.mpr (by rw [h, ← hcount]; exact Nat.le_add_left _ _)
  rw [unmarkPending_intr, BitVec.toNat_sub_of_le hle, h, ← hcount]
  rfl

theorem recomputeVector_counted {s : State} (h : s.intr.Counted) : (recomputeVector s).intr.Counted := by
  simpa only [Intr.Counted, recomputeVector_intr] using h

theorem intWrite_counted {s : State} (h : s.intr.Counted) (v : BitVec 8) (d : Bool) :
    (intWrite v d s).intr.Counted := by
  unfold intWrite
  refine recomputeVector_counted ?_
  split <;> split
  next hset =>
    simp only [Bool.and_eq_true, beq_iff_eq] at hset
    exact markPending_counted h hset.2
  · exact h
  next hclear => exact unmarkPending_counted h (beq_iff_eq.mp hclear)
  · exact h

theorem intClear_counted {s : State} (h : s.intr.Counted) : (intClear s).intr.Counted := by
  unfold intClear
  refine recomputeVector_counted ?_
  split
  next hclear => exact unmarkPending_counted h (beq_iff_eq.mp hclear)
  · exact h

theorem writeProcMode_counted {s : State} (h : s.intr.Counted) (x : Word) : (writeProcMode x s).intr.Counted := by
  rw [writeProcMode_intr]
  split
  · exact pendingCount_nil.symm
  · exact h

/-! ## The run state, the overlay and the translator -/

theorem endOfCycle_dieHalts {s : State} (h : s.run.DieHalts) (c : Common) : (endOfCycle c s).run.DieHalts := by
  intro hdie
  simp [h hdie]

theorem writeProcMode_dieHalts {s : State} (h : s.run.DieHalts) (x : Word) : (writeProcMode x s).run.DieHalts := by
  intro hdie
  rw [writeProcMode_dieRequest] at hdie
  simp [writeProcMode_halted, hdie, h hdie]

theorem mergeOverlay_emptyUnlessPending {s : State} (h : s.overlay.EmptyUnlessPending) :
    (mergeOverlay s).overlay.EmptyUnlessPending := by
  rw [mergeOverlay_overlay]
  split
  · exact fun _ => ⟨rfl, rfl⟩
  · exact h

theorem resolve_laneMode {s : State} (h : s.vm.LaneMode) (v : Word) (kind : AccessKind) (force : Bool) :
    (resolve v kind force s).vm.LaneMode := by
  unfold resolve
  split
  · exact h
  · rfl

theorem startAccess_laneMode {v : Word} {kind : AccessKind} {force : Bool} {pend : BusPending} {s t : State}
    (h : s.vm.LaneMode) (ht : (startAccess v kind force pend s).Leaves t) : t.vm.LaneMode := by
  have hlane : (resolve v kind force { s with vm := { s.vm with vma := v } }).vm.LaneMode :=
    resolve_laneMode (s := { s with vm := { s.vm with vma := v } }) h v kind force
  rw [startAccess_eq] at ht
  (repeat' split at ht) <;> rcases ht with ht | ⟨k, ht⟩ <;> cases ht <;> exact hlane

/-! ## The acts of a cycle -/

section
variable {s t : State} (h : RegistersWf s)
include h

theorem registersWf_of_intr (hintr : t.intr.Counted) (hrun : t.run = s.run) (hstalls : t.stalls = s.stalls)
    (hmodes : t.modes = s.modes) (hoverlay : t.overlay = s.overlay) (hvm : t.vm = s.vm) : RegistersWf t := by
  obtain ⟨-, hrest⟩ := h
  unfold RegistersWf
  rw [hrun, hstalls, hmodes, hoverlay, hvm]
  exact ⟨hintr, hrest⟩

theorem startAccess_registersWf {v : Word} {kind : AccessKind} {force : Bool} {pend : BusPending}
    (ht : (startAccess v kind force pend s).Leaves t) : RegistersWf t := by
  obtain ⟨hintr, hrun, hhold, hoverlay, hlane⟩ := h
  have hlane' := startAccess_laneMode hlane ht
  rw [(startAccess_frame v kind force pend s t ht).1]
  exact ⟨hintr, hrun, hhold, hoverlay, hlane'⟩

theorem intClear_registersWf : RegistersWf (intClear s) :=
  registersWf_of_intr h (intClear_counted h.1) (by simp) (by simp) (by simp) (by simp) (by simp)

theorem funcDest_registersWf {f : FuncDest} {o : Word} (ht : (funcDest f o s).Leaves t) : RegistersWf t := by
  cases f
  case vmaStartRead | vmaStartWrite | vmaStartReadForce | vmaStartWriteForce => exact startAccess_registersWf h ht
  all_goals
    rcases ht with ht | ⟨k, ht⟩ <;> cases ht
  case interruptClear => exact intClear_registersWf h
  case imodLow | imodHigh =>
    obtain ⟨hintr, hrun, hhold, -, hlane⟩ := h
    exact ⟨hintr, hrun, hhold, fun hp => Bool.noConfusion hp, hlane⟩
  all_goals exact h

theorem deferredReturn_registersWf (ht : (deferredReturn s).Leaves t) : RegistersWf t := by
  rw [deferredReturn_frame ht]
  exact h

theorem mergeOverlay_registersWf : RegistersWf (mergeOverlay s) := by
  obtain ⟨hintr, hrun, hhold, hoverlay, hlane⟩ := h
  have hoverlay' := mergeOverlay_emptyUnlessPending hoverlay
  refine ⟨?_, ?_, ?_, hoverlay', ?_⟩ <;> simpa only [mergeOverlay_frame]

theorem fetchNext_registersWf : RegistersWf (fetchNext s) :=
  mergeOverlay_registersWf (s := fetch (pushHistory (advance s))) h

theorem mOperand_registersWf {src : MSource}
    (ht : (∃ v, mOperand src s = .go (v, t)) ∨ ∃ k, mOperand src s = .die k t) : RegistersWf t := by
  rw [(mOperand_frame src s t ht).1]
  exact h

theorem transfer_registersWf {tr : Transfer} {target : MicroAddr} {lpc : Bool}
    (ht : (transfer tr target lpc s).Leaves t) : RegistersWf t := by
  rw [transfer_frame tr target lpc s t ht]
  exact h

theorem writeMReg_registersWf (m : BitVec 6) (v : Word) : RegistersWf (writeMReg m v s) := by
  simpa only [RegistersWf, writeMReg_frame] using h

theorem endOfCycle_registersWf (c : Common) : RegistersWf (endOfCycle c s) := by
  obtain ⟨hintr, hrun, hrest⟩ := h
  exact ⟨hintr, endOfCycle_dieHalts hrun c, hrest⟩

theorem raiseDie_registersWf : RegistersWf (raiseDie s) := by
  obtain ⟨hintr, -, hrest⟩ := h
  exact ⟨hintr, fun _ => rfl, hrest⟩

theorem CycleAct.registersWf (ha : CycleAct s t) : RegistersWf t := by
  cases ha with
  | tick | countLc | data | storeA => exact h
  | stall x hx =>
    obtain ⟨hintr, hrun, hhold, hrest⟩ := h
    exact ⟨hintr, hrun, hx.trans hhold, hrest⟩
  | fire ht => exact deferredReturn_registersWf h ht
  | fetchNext => exact fetchNext_registersWf h
  | access _ _ _ _ ht => exact startAccess_registersWf h ht
  | source _ ht => exact mOperand_registersWf h ht
  | funcDest _ _ ht => exact funcDest_registersWf h ht
  | storeM m o => exact writeMReg_registersWf h m o
  | transfer _ _ _ ht => exact transfer_registersWf h ht
  | endOfCycle c => exact endOfCycle_registersWf h c
  | die => exact raiseDie_registersWf h

end

theorem startAccess_memoriesWf {v : Word} {kind : AccessKind} {force : Bool} {pend : BusPending} {s t : State}
    (h : s.memoriesWf = true) (ht : (startAccess v kind force pend s).Leaves t) : t.memoriesWf = true := by
  obtain ⟨e, h1, h2, h3, -⟩ := startAccess_frame _ _ _ _ _ _ ht
  exact memoriesWf_of_eq h (by rw [e]) (by rw [e]) ⟨h1, h2, h3⟩ (by rw [e]) (by rw [e]) (by rw [e]; simp)

theorem deferredReturn_memoriesWf {s t : State} (h : s.memoriesWf = true) (ht : (deferredReturn s).Leaves t) :
    t.memoriesWf = true := by
  rw [deferredReturn_frame ht]
  exact h

theorem CycleAct.memoriesWf {s t : State} (h : s.memoriesWf = true) (ha : CycleAct s t) : t.memoriesWf = true := by
  cases ha with
  | tick | countLc | data | stall => exact h
  | fire ht => exact deferredReturn_memoriesWf h ht
  | fetchNext => exact fetchNext_memoriesWf h
  | access _ _ _ _ ht => exact startAccess_memoriesWf h ht
  | source src ht => exact mOperand_memoriesWf h src ht
  | funcDest f o ht => exact funcDest_memoriesWf h f o ht
  | storeA a o => exact writeA_memoriesWf h a o
  | storeM m o => exact writeMReg_memoriesWf h m o
  | transfer tr target lpc ht => exact transfer_memoriesWf h tr target lpc ht
  | endOfCycle c => exact endOfCycle_memoriesWf h c
  | die => exact raiseDie_memoriesWf h

theorem CycleAct.inv {s t : State} (ha : CycleAct s t) (h : s.Inv) : t.Inv := by
  obtain ⟨hmem, hreg⟩ := (inv_iff s).mp h
  exact (inv_iff t).mpr ⟨ha.memoriesWf hmem, ha.registersWf hreg⟩

/-! ## The bus service, SPY and the platform -/

theorem serviceBus_registersWf {s : State} (h : RegistersWf s) : RegistersWf (serviceBus s) := by
  unfold serviceBus
  split <;> exact h

theorem interruptWindow_registersWf {s : State} (h : RegistersWf s) : RegistersWf (interruptWindow s) := by
  have hwrite : ∀ v d, RegistersWf (intWrite v d s) := fun v d =>
    registersWf_of_intr h (intWrite_counted h.1 v d) (by simp) (by simp) (by simp) (by simp) (by simp)
  unfold interruptWindow
  dsimp only
  split
  · split
    · exact hwrite _ _
    · exact hwrite _ _
    · exact h
    · exact h
  · exact h

theorem serveBus_inv {s : State} (h : s.Inv) : (serveBus s).Inv := by
  obtain ⟨hmem, hreg⟩ := (inv_iff s).mp h
  exact (inv_iff _).mpr ⟨interruptWindow_memoriesWf (serviceBus_memoriesWf hmem),
    interruptWindow_registersWf (serviceBus_registersWf hreg)⟩

theorem writeProcMode_registersWf {s : State} (h : RegistersWf s) (x : Word) :
    RegistersWf (writeProcMode x s) := by
  obtain ⟨hintr, hrun, -, hrest⟩ := h
  rw [writeProcMode_eq]
  exact ⟨writeProcMode_counted hintr x, writeProcMode_dieHalts hrun x, rfl, hrest⟩

theorem spyWrite_registersWf {s : State} (h : RegistersWf s) (r : Option SpyReg) (x : Word) :
    RegistersWf (spyWrite r x s) := by
  cases r with
  | none => exact h
  | some r =>
    cases r
    case processorMode => exact writeProcMode_registersWf h x
    all_goals exact h

theorem acknowledge_registersWf {s : State} (h : RegistersWf s) : RegistersWf (acknowledge s) := h

theorem acknowledgeRead_registersWf {s : State} (h : RegistersWf s) (v : Word) :
    RegistersWf (acknowledgeRead v s) := h

theorem spyRespond_registersWf {s : State} (h : RegistersWf s) : RegistersWf (spyRespond s) := by
  unfold spyRespond
  dsimp only
  split
  · exact acknowledgeRead_registersWf h _
  · exact acknowledgeRead_registersWf h _
  · exact acknowledge_registersWf (spyWrite_registersWf h _ _)
  · exact acknowledge_registersWf (spyWrite_registersWf h _ _)

theorem spyRespond_inv {s : State} (h : s.Inv) : (spyRespond s).Inv := by
  obtain ⟨hmem, hreg⟩ := (inv_iff s).mp h
  exact (inv_iff _).mpr ⟨spyRespond_memoriesWf hmem, spyRespond_registersWf hreg⟩

theorem applyEvent_registersWf {s : State} (h : RegistersWf s) (e : PlatformEvent) :
    RegistersWf (applyEvent e s) := by
  cases e with
  | reset busID => exact reset_registersWf
  | grant =>
    unfold applyEvent
    dsimp only
    split <;> exact h
  | cells b => exact h

theorem applyEvent_inv {s : State} (h : s.Inv) (e : PlatformEvent) : (applyEvent e s).Inv := by
  obtain ⟨hmem, hreg⟩ := (inv_iff s).mp h
  exact (inv_iff _).mpr ⟨applyEvent_memoriesWf hmem e, applyEvent_registersWf hreg e⟩

theorem applyEvents_inv (es : List PlatformEvent) {s : State} (h : s.Inv) : (applyEvents es s).Inv := by
  induction es generalizing s with
  | nil => exact h
  | cons e es ih => exact ih (applyEvent_inv h e)

theorem platformTick_inv {s : State} (h : s.Inv) : (platformTick s).Inv := by
  unfold platformTick
  split
  · exact h
  · exact applyEvents_inv _ h

theorem clockPulse_inv {s t : State} (h : s.Inv) (ht : clockPulse s = .next t) : t.Inv := by
  have hserved : (serveBus s).Inv := serveBus_inv h
  rcases clockPulse_cases ht with ⟨-, rfl⟩ | ⟨-, hacts⟩
  · exact spyRespond_inv hserved
  · exact hacts.keeps CycleAct.inv hserved

/-- Settles O52: the platform's tick keeps the invariant, and so does the `clockPulse` after it, whether it
serves SPY or is a chain of acts that each keep it. -/
theorem everyStepKeepsTheInvariant : Obligations.EveryStepKeepsTheInvariant := by
  intro s t hinv hstep
  exact clockPulse_inv (platformTick_inv hinv) hstep

end Sys2Proof.Machine
end

section
/-! # The two-level translator, by numbers

For O15, O30, O31 and O32. Each table lookup of 20_memory R91 to R94 is given by the number of the entry it
reads, then `translationFaults_iff` says when a translation faults and `startAccess_started` what a memory
operation that goes through leaves. -/

namespace Sys2Proof.Machine

/-! ## The table entries -/

/-- A field of a word is its number divided and reduced. -/
theorem toNat_extractLsb'_eq_div_mod {w : Nat} (x : BitVec w) (lo n : Nat) :
    (x.extractLsb' lo n).toNat = x.toNat / 2 ^ lo % 2 ^ n := by
  rw [BitVec.extractLsb'_toNat, Nat.shiftRight_eq_div_pow]

/-- Two fields side by side, as a number. -/
theorem toNat_append_eq_mul_add {m n : Nat} (x : BitVec m) (y : BitVec n) :
    (x ++ y).toNat = x.toNat * 2 ^ n + y.toNat := by
  rw [BitVec.toNat_append, ← Nat.shiftLeft_add_eq_or_of_lt y.isLt, Nat.shiftLeft_eq]

/-- A bit of a word is a remainder of its number. -/
theorem getLsbD_iff_div_mod {w : Nat} (x : BitVec w) (k : Nat) :
    x.getLsbD k = true ↔ x.toNat / 2 ^ k % 2 = 1 := by
  rw [← BitVec.testBit_toNat, Nat.testBit_eq_decide_div_mod_eq, decide_eq_true_iff]

theorem lv1Entry_eq (s : State) (v : Word) :
    lv1Entry s v = s.vm.lv1.read (v.toNat / 2 ^ 13 % 4096) :=
  congrArg s.vm.lv1.read (toNat_extractLsb'_eq_div_mod v 13 12)

theorem lv2Index_toNat (s : State) (v : Word) : (lv2Index s v).toNat = level2Index s v := by
  have hpage : ((lv1Entry s v).extractLsb' 0 7).toNat = (lv1Entry s v).toNat / 1 % 128 :=
    toNat_extractLsb'_eq_div_mod _ 0 7
  have hentry : (v.extractLsb' 8 5).toNat = v.toNat / 256 % 32 := toNat_extractLsb'_eq_div_mod v 8 5
  have happend : (lv2Index s v).toNat =
      ((lv1Entry s v).extractLsb' 0 7).toNat * 32 + (v.extractLsb' 8 5).toNat := toNat_append_eq_mul_add _ _
  rw [happend, hpage, hentry, Nat.div_one, lv1Entry_eq, level2Index]

theorem lv2Control_eq (s : State) (v : Word) : lv2Control s v = s.vm.lv2c.read (level2Index s v) := by
  rw [lv2Control, lv2Index_toNat]

theorem lv2Address_eq (s : State) (v : Word) : lv2Address s v = s.vm.lv2a.read (level2Index s v) := by
  rw [lv2Address, lv2Index_toNat]

/-! ## Access rights -/

/-- The table of R97: codes 0 and 3 decide alone, 1 refuses reads and 2 refuses writes without an override. -/
theorem accessRefused_iff (access : BitVec 2) (kind : AccessKind) (override : Bool) :
    accessRefused access kind override = true ↔
      access.toNat = 0 ∨ (access.toNat = 1 ∧ kind = .read ∧ override = false)
        ∨ (access.toNat = 2 ∧ kind = .write ∧ override = false) := by
  revert access
  cases kind <;> cases override <;> decide

/-- The level-1 valid bit is clear. -/
theorem lv1Invalid_iff (entry : BitVec 10) : (!entry.getLsbD 9) = true ↔ entry.toNat / 512 = 0 := by
  have hlt := entry.isLt
  rw [Bool.not_eq_true', ← Bool.not_eq_true, getLsbD_iff_div_mod]
  omega

theorem translationFaults_iff (s : State) (v : Word) (kind : AccessKind) (force : Bool) :
    translationFaults s v kind force = true ↔ FaultRule s v kind force := by
  have haccess : ∀ x : BitVec 16, (x.extractLsb' 9 2).toNat = x.toNat / 512 % 4 := fun x =>
    toNat_extractLsb'_eq_div_mod x 9 2
  have hforce : ∀ x : BitVec 16, x.getLsbD 11 = true ↔ x.toNat / 2048 % 2 = 1 := fun x => getLsbD_iff_div_mod x 11
  have hoverride : ∀ b : Bool, (force && b) = false ↔ ¬ (force = true ∧ b = true) := by
    intro b
    rw [← Bool.and_eq_true, Bool.not_eq_true]
  rw [translationFaults, Bool.or_eq_true, accessRefused_iff, haccess, hoverride, hforce,
    Bool.and_eq_true, lv1Invalid_iff, lv1Entry_eq, lv2Control_eq]
  exact or_assoc.trans (or_congr_right or_assoc)

/-! ## What a translation leaves -/

section
variable (v : Word) (kind : AccessKind) (force : Bool) (s : State)

/-- A fault leaves the address latches (R94). -/
theorem resolve_latches_of_fault (h : FaultRule s v kind force) :
    (resolve v kind force s).vm.physAddr = s.vm.physAddr ∧ (resolve v kind force s).vm.byteMode = s.vm.byteMode
      ∧ (resolve v kind force s).vm.byteSel = s.vm.byteSel := by
  rw [resolve, if_pos ((translationFaults_iff s v kind force).mpr h)]
  exact ⟨rfl, rfl, rfl⟩

/-- A translation that goes through loads them from the level-2 address entry. -/
theorem resolve_latches_of_not_fault (h : ¬ FaultRule s v kind force) :
    (resolve v kind force s).vm.physAddr = (lv2Address s v).extractLsb' 0 22 ++ v.extractLsb' 0 8
      ∧ (resolve v kind force s).vm.byteMode = ((lv2Address s v).extractLsb' 22 2 != 0)
      ∧ (resolve v kind force s).vm.byteSel = (lv2Address s v).extractLsb' 22 2 := by
  rw [resolve, if_neg (fun hf => h ((translationFaults_iff s v kind force).mp hf))]
  exact ⟨rfl, rfl, rfl⟩

theorem resolve_cachedGeneration_toNat :
    (resolve v kind force s).vm.cachedGeneration.toNat = (s.vm.lv2c.read (level2Index s v)).toNat % 64 := by
  obtain ⟨-, -, -, -, -, -, hcached⟩ := resolve_vm v kind force s
  have hfield : ((lv2Control s v).extractLsb' 0 6).toNat = (lv2Control s v).toNat / 1 % 64 :=
    toNat_extractLsb'_eq_div_mod _ 0 6
  rw [hcached, hfield, Nat.div_one, lv2Control_eq]

theorem resolve_pageFault_iff : (resolve v kind force s).vm.pageFault = true ↔ FaultRule s v kind force := by
  obtain ⟨-, -, -, -, -, hfault, -⟩ := resolve_vm v kind force s
  rw [hfault, translationFaults_iff]

end

/-- The byte-lane field of a level-2 address entry. -/
theorem byteLane_toNat (page : BitVec 24) : (page.extractLsb' 22 2).toNat = page.toNat / 2 ^ 22 := by
  have hlt := page.isLt
  rw [toNat_extractLsb'_eq_div_mod]
  omega

theorem byteLane_ne_zero_iff (page : BitVec 24) :
    (page.extractLsb' 22 2 != 0) = true ↔ page.toNat / 2 ^ 22 ≠ 0 := by
  rw [bne_iff_ne, ne_eq, ← BitVec.toNat_inj, byteLane_toNat]
  rfl

theorem resolve_latches_toNat (v : Word) (kind : AccessKind) (force : Bool) (s : State)
    (h : ¬ FaultRule s v kind force) :
    let t := resolve v kind force s
    let page := s.vm.lv2a.read (level2Index s v)
    t.vm.physAddr.toNat = page.toNat % 2 ^ 22 * 256 + v.toNat % 256
      ∧ t.vm.byteSel.toNat = page.toNat / 2 ^ 22 ∧ (t.vm.byteMode = true ↔ page.toNat / 2 ^ 22 ≠ 0) := by
  obtain ⟨haddr, hmode, hsel⟩ := resolve_latches_of_not_fault v kind force s h
  dsimp only
  rw [haddr, hmode, hsel, lv2Address_eq, byteLane_toNat, byteLane_ne_zero_iff, toNat_append_eq_mul_add,
    toNat_extractLsb'_eq_div_mod, toNat_extractLsb'_eq_div_mod, Nat.pow_zero, Nat.div_one, Nat.div_one]
  exact ⟨rfl, rfl, Iff.rfl⟩

/-- Settles O32: the fault by the table of R97, the latches by the fault. -/
theorem translationFollowsAccessRights : Obligations.TranslationFollowsAccessRights := by
  intro s v kind force
  exact ⟨resolve_pageFault_iff v kind force s, resolve_cachedGeneration_toNat v kind force s,
    resolve_latches_of_fault v kind force s, resolve_latches_toNat v kind force s⟩

end Sys2Proof.Machine
end

section
/-! # Memory operations

For O15, O30 and O31. What a memory operation leaves (`startAccess_started`), the same through a start
destination and through the instruction-stream step, and the refusal of a second transaction. -/

namespace Sys2Proof.Machine

theorem canStart_iff (v : Word) (kind : AccessKind) (force : Bool) (s : State) :
    CanStart v kind force s ↔ FaultRule s v kind force ∨ s.client.busPending = .idle :=
  or_congr_left (translationFaults_iff s v kind force)

/-! ## The request -/

/-- The bus byte address of R114: outside byte mode the lane is 0, so it is the latched lane either way. -/
theorem busAddress_toNat {s : State} (hlane : s.vm.byteMode = true ↔ s.vm.byteSel.toNat ≠ 0) :
    (busAddress s).toNat = s.vm.physAddr.toNat * 4 + s.vm.byteSel.toNat := by
  rw [busAddress, toNat_append_eq_mul_add]
  split
  · rfl
  next hmode =>
    have hsel : s.vm.byteSel.toNat = 0 := Decidable.of_not_not fun h => hmode (hlane.mpr h)
    rw [hsel]
    rfl

/-- The kind of R111 and R113, by the page's lane field. -/
theorem requestKind_eq (kind : AccessKind) {byteMode : Bool} {lane : Nat} (h : byteMode = true ↔ lane ≠ 0) :
    requestKind kind byteMode =
      match kind, decide (lane = 0) with
      | .read, true => .readWord
      | .read, false => .readByte
      | .write, true => .writeWord
      | .write, false => .writeByte := by
  have hmode : byteMode = !decide (lane = 0) := by
    rw [Bool.eq_iff_iff, h, Bool.not_eq_true', decide_eq_false_iff_not]
  rw [hmode]
  cases kind <;> cases decide (lane = 0) <;> rfl

/-- The request handed out after a translation that goes through is the one R111, R113 and R114 describe. -/
theorem issue_requests_eq_requestFor {v : Word} {kind : AccessKind} {pend : BusPending} {s t : State}
    {page : BitVec 24} (haddr : t.vm.physAddr.toNat = page.toNat % 2 ^ 22 * 256 + v.toNat % 256)
    (hsel : t.vm.byteSel.toNat = page.toNat / 2 ^ 22) (hmode : t.vm.byteMode = true ↔ page.toNat / 2 ^ 22 ≠ 0)
    (hmd : t.vm.md = s.vm.md) (hclient : t.client = s.client) (hreq : t.requests = s.requests) :
    (issue kind pend t).requests = s.requests ++ [requestFor s v kind page] := by
  have haddress : busAddress t =
      BitVec.ofNat 32 ((page.toNat % 2 ^ 22 * 256 + v.toNat % 256) * 4 + page.toNat / 2 ^ 22) := by
    rw [← haddr, ← hsel, ← busAddress_toNat (hsel.symm ▸ hmode), BitVec.ofNat_toNat, BitVec.setWidth_eq]
  unfold requestFor
  rw [issue_requests, hreq, hclient, hmd, haddress, requestKind_eq kind hmode]
  cases kind <;> rfl

/-! ## The operation -/

/-- A memory operation that goes through: VMA, the translator's latches, and unless it faults one request. -/
theorem startAccess_started {v : Word} {kind : AccessKind} {force : Bool} {pend : BusPending} {s t : State}
    (h : startAccess v kind force pend s = .go t) : Started v kind force pend s t := by
  let u : State := { s with vm := { s.vm with vma := v } }
  obtain ⟨-, -, -, hvma, hmd, -, -⟩ := resolve_vm v kind force u
  have hgen := resolve_cachedGeneration_toNat v kind force u
  rw [startAccess_eq] at h
  by_cases hf : FaultRule s v kind force
  · rw [if_pos ((translationFaults_iff s v kind force).mpr hf)] at h
    cases h
    obtain ⟨haddr, hmode, hsel⟩ := resolve_latches_of_fault v kind force u hf
    exact ⟨hvma, hgen, fun _ => ⟨(resolve_pageFault_iff v kind force u).mpr hf, haddr, hmode, hsel, by simp,
      by simp⟩, fun hn => absurd hf hn⟩
  · rw [if_neg (fun hx => hf ((translationFaults_iff s v kind force).mp hx))] at h
    split at h <;> cases h
    obtain ⟨haddr, hsel, hmode⟩ := resolve_latches_toNat v kind force u hf
    have hnofault : (resolve v kind force u).vm.pageFault = false :=
      Bool.eq_false_iff.mpr fun hx => hf ((resolve_pageFault_iff v kind force u).mp hx)
    exact ⟨hvma, hgen, fun hx => absurd hx hf, fun _ => ⟨hnofault, haddr, hsel, hmode,
      issue_requests_eq_requestFor haddr hsel hmode hmd (by simp) (by simp), rfl⟩⟩

/-- What `Started` speaks of, so that it passes to every state alike in these. -/
theorem Started.congr {v : Word} {kind : AccessKind} {force : Bool} {pend : BusPending} {s t u : State}
    (h : Started v kind force pend s t) (hvm : u.vm = t.vm) (hreq : u.requests = t.requests)
    (hclient : u.client = t.client) : Started v kind force pend s u := by
  unfold Started
  rw [hvm, hreq, hclient]
  exact h

theorem startAccess_md {v : Word} {kind : AccessKind} {force : Bool} {pend : BusPending} {s t : State}
    (h : startAccess v kind force pend s = .go t) : t.vm.md = s.vm.md := by
  obtain ⟨-, -, -, -, hmd⟩ := startAccess_frame v kind force pend s t (.inl h)
  exact hmd

/-! ## The start destinations -/

/-- What the engine remembers of a start destination's request (20_memory R112). -/
def AccessKind.pending : AccessKind → BusPending
  | .read => .dataRead
  | .write => .dataWrite

/-- The functional half of a start destination is its memory operation (41 R275 to R278). -/
theorem funcDest_of_start {f : FuncDest} {kind : AccessKind} {force : Bool} (h : f.start = some (kind, force))
    (o : Word) (s : State) : funcDest f o s = startAccess o kind force kind.pending s := by
  cases f <;> cases h <;> rfl

/-- Settles O30: the destination's memory operation, then the store of the M register, which leaves all that
`Started` speaks of. -/
theorem startDestinationsIssueRequests : Obligations.StartDestinationsIssueRequests := by
  intro f kind force pend m o s hmem hready
  obtain ⟨hstart, rfl⟩ : f.start = some (kind, force) ∧ pend = kind.pending := by
    simp only [List.mem_cons, Prod.mk.injEq, List.not_mem_nil, or_false] at hmem
    rcases hmem with ⟨rfl, rfl, rfl, rfl⟩ | ⟨rfl, rfl, rfl, rfl⟩ | ⟨rfl, rfl, rfl, rfl⟩ | ⟨rfl, rfl, rfl, rfl⟩ <;>
      exact ⟨rfl, rfl⟩
  obtain ⟨t, ht⟩ := startAccess_go o kind force kind.pending s ((canStart_iff o kind force s).mpr hready)
  refine ⟨writeMReg m o t, ?_, (startAccess_started ht).congr (by simp) (by simp) (by simp), ?_⟩
  · rw [writeback_func, funcDest_of_start hstart, ht]
    rfl
  · simpa using startAccess_md ht

/-! ## The instruction-stream step -/

theorem streams_eq_true_iff (c : Common) : c.streams = true ↔ c.mf = true ∨ c.msa = true :=
  Bool.or_eq_true_iff

theorem streamAddress_eq (s : State) :
    streamAddress s = BitVec.ofNat 32 (s.stream.lc.toNat / 4 % 2 ^ 25) := by
  apply BitVec.eq_of_toNat_eq
  have hfield : (s.stream.lc.extractLsb' 2 25).toNat = s.stream.lc.toNat / 4 % 2 ^ 25 :=
    toNat_extractLsb'_eq_div_mod _ 2 25
  rw [streamAddress, BitVec.toNat_setWidth, hfield, BitVec.toNat_ofNat]

theorem afterStream_of_not_streams {c : Common} {s : State} (h : c.streams = false) : afterStream c s = s := by
  obtain ⟨-, -, -, -, -, hkeep⟩ := afterStream_frame c s
  exact hkeep h

/-- The instruction-stream step that goes through: its memory operation, then `LC` counts. -/
theorem afterStream_of_streams {c : Common} {s : State} (h : c.streams = true) (hready : StreamReady c s) :
    ∃ t, startAccess (streamAddress s) .read false .streamRead s = .go t
      ∧ afterStream c s = { t with stream := { t.stream with lc := t.stream.lc + 2 } } := by
  obtain ⟨t, ht⟩ := startAccess_go _ .read false .streamRead s (hready h)
  have hgo := streamStep_go c s hready
  rw [h, streamStep_true, ht] at hgo
  exact ⟨t, ht, (Flow.go.inj hgo).symm⟩

/-- Settles O15: the step is a memory operation at the address `LC` names, then `LC` counts. -/
theorem macroStreamStepReadsAndAdvances : Obligations.MacroStreamStepReadsAndAdvances := by
  intro c s
  refine ⟨fun hmf hmsa => afterStream_of_not_streams (by simp [Common.streams, hmf, hmsa]), fun hbits hready => ?_⟩
  obtain ⟨t, ht, hafter⟩ := afterStream_of_streams ((streams_eq_true_iff c).mpr hbits) hready
  obtain ⟨hframe, -⟩ := startAccess_frame _ _ _ _ _ _ (.inl ht)
  have hstream : t.stream = s.stream := by rw [hframe]
  have hlc : (t.stream.lc + 2).toNat = (s.stream.lc.toNat + 2) % 2 ^ 32 := by rw [hstream, BitVec.toNat_add]; rfl
  have hmacro : t.stream.macroIR = s.stream.macroIR := congrArg Stream.macroIR hstream
  have hmd : t.vm.md = s.vm.md := startAccess_md ht
  rw [hafter, ← streamAddress_eq]
  exact ⟨(startAccess_started ht).congr rfl rfl rfl, hlc, hmacro, hmd⟩

/-! ## Operand fetch -/

theorem afterStream_pcs (c : Common) (s : State) : (afterStream c s).pcs = s.pcs := by
  rw [(afterStream_frame c s).1]

theorem afterStream_files (c : Common) (s : State) : (afterStream c s).files = s.files := by
  rw [(afterStream_frame c s).1]

/-- The instruction-stream step does not decide whether the M source can be read. -/
theorem sourceReady_afterStream_iff (src : MSource) (c : Common) (s : State) :
    SourceReady src (afterStream c s) ↔ SourceReady src s := by
  unfold SourceReady
  rw [afterStream_pcs]

/-- Steps 6 and 7 that go through give the A word, the M source's value and the state after both. -/
theorem fetchOperands_go {c : Common} {s : State} (h : FetchReady c s) :
    fetchOperands c s = .go (aValue c s, mValue c s, afterFetch c s) := by
  obtain ⟨hstream, hsource⟩ := h
  have hread : readA (afterStream c s) c.aSrc = aValue c s := by rw [readA, afterStream_files, aValue, readA]
  calc fetchOperands c s
      = (mOperand c.mSrc (afterStream c s)).bind fun p => .go (readA (afterStream c s) c.aSrc, p.1, p.2) :=
        congrArg (Flow.bind · _) (streamStep_go c s hstream)
    _ = .go (aValue c s, mValue c s, afterFetch c s) := by
        rw [afterFetch_eq c s ((sourceReady_afterStream_iff _ c s).mpr hsource), Flow.bind_go, hread]

/-- The instruction-stream step that cannot start its read ends the fetch. -/
theorem fetchOperands_die_of_not_streamReady {c : Common} {s : State} (h : ¬ StreamReady c s) :
    fetchOperands c s = .die .busIssueWhilePending (afterStream c s) := by
  obtain ⟨t, ht, rfl⟩ := streamStep_die c s h
  exact congrArg (Flow.bind · _) ht

theorem fetchOperands_die {c : Common} {s : State} (h : ¬ FetchReady c s) :
    ∃ cause t, fetchOperands c s = .die cause t := by
  by_cases hstream : StreamReady c s
  · have hsource : ¬ SourceReady c.mSrc (afterStream c s) := fun hs =>
      h ⟨hstream, (sourceReady_afterStream_iff _ c s).mp hs⟩
    obtain ⟨k, t, ht, -⟩ := mOperand_die _ _ hsource
    have hbind : fetchOperands c s = (mOperand c.mSrc (afterStream c s)).bind _ :=
      congrArg (Flow.bind · _) (streamStep_go c s hstream)
    exact ⟨k, t, by rw [hbind, ht, Flow.bind_die]⟩
  · exact ⟨_, _, fetchOperands_die_of_not_streamReady hstream⟩

/-- Settles O14: the two halves of operand fetch, each going through or dying. -/
theorem operandFetchCompletes : Obligations.OperandFetchCompletes := by
  intro c s
  exact ⟨fetchOperands_go, fetchOperands_die⟩

end Sys2Proof.Machine
end

section
/-! # The engine as a bus master and as a bus slave

For O34, O45 and O46. Step 1 (20_memory R115 to R118), and the two slave windows of step 2: the
interrupt-status window (R121) and SPY (R120). -/

namespace Sys2Proof.Machine

/-! ## The service step -/

theorem ownsBus_iff (s : State) :
    ownsBus s = true ↔ s.client.busPending ≠ .idle ∧ s.bus.busy = true ∧ s.bus.master = s.client.busID.val := by
  simp [ownsBus, and_assoc]

theorem serviceBus_of_not_ownsBus {s : State} (h : ¬ ownsBus s = true) :
    serviceBus s = { s with client := { s.client with busError := false } } := if_neg h

section
variable {s : State} (h : ownsBus s = true)
include h

theorem serviceBus_md_of_ownsBus :
    (serviceBus s).vm.md = if s.client.busPending = .dataWrite then s.vm.md else s.bus.data := by
  rw [serviceBus, if_pos h]

theorem serviceBus_busError_of_ownsBus : (serviceBus s).client.busError = s.bus.error := by
  rw [serviceBus, if_pos h]

/-- An acknowledge or an error ends the transaction and releases the bus. -/
theorem serviceBus_of_answered (hdone : s.bus.ack = true ∨ s.bus.error = true) :
    (serviceBus s).client.busPending = .idle ∧ (serviceBus s).bus = { s.bus with busy := false } := by
  rw [serviceBus, if_pos h]
  have hor : (s.bus.ack || s.bus.error) = true := Bool.or_eq_true_iff.mpr hdone
  simp [hor]

/-- The bus that has not answered stays the engine's. -/
theorem serviceBus_of_unanswered (hdone : ¬ (s.bus.ack = true ∨ s.bus.error = true)) :
    (serviceBus s).client.busPending = s.client.busPending ∧ (serviceBus s).bus = s.bus := by
  obtain ⟨-, hbusy, -⟩ := (ownsBus_iff s).mp h
  have hor : (s.bus.ack || s.bus.error) = false := Bool.eq_false_iff.mpr fun hx => hdone (Bool.or_eq_true_iff.mp hx)
  have hbus : { s.bus with busy := true } = s.bus := by rw [← hbusy]
  rw [serviceBus, if_pos h, hor]
  exact ⟨rfl, hbus⟩

theorem serviceBus_macroIR_of_ownsBus :
    (serviceBus s).stream.macroIR =
      if s.client.busPending = .streamRead ∧ s.bus.ack = true then s.bus.data else s.stream.macroIR := by
  rw [serviceBus, if_pos h]
  simp

end

/-- Settles O45: the service step, of an engine that owns the bus and of one that does not. -/
theorem busServiceFollowsTheCells : Obligations.BusServiceFollowsTheCells := by
  intro s owned reads t
  by_cases hown : ownsBus s = true
  · have howned : owned := (ownsBus_iff s).mp hown
    have hmd : t.vm.md = _ := serviceBus_md_of_ownsBus hown
    have hmacro : t.stream.macroIR = _ := serviceBus_macroIR_of_ownsBus hown
    have hreads : reads ↔ s.client.busPending ≠ .dataWrite := by
      obtain ⟨hpending, -, -⟩ := howned
      cases hp : s.client.busPending <;> simp_all [reads]
    refine ⟨fun _ hr => ?_, fun hr => ?_, fun _ => serviceBus_busError_of_ownsBus hown, fun hn => absurd howned hn,
      fun _ => serviceBus_of_answered hown, fun hn => serviceBus_of_unanswered hown fun hd => hn ⟨howned, hd⟩,
      fun _ hs ha => ?_, fun hn => ?_⟩
    · rw [hmd, if_neg (hreads.mp hr)]
    · rw [hmd, if_pos (Decidable.of_not_not fun hw => hr ⟨howned, hreads.mpr hw⟩)]
    · rw [hmacro, if_pos ⟨hs, ha⟩]
    · rw [hmacro, if_neg fun hx => hn ⟨howned, hx⟩]
  · have hnot : ¬ owned := fun ho => hown ((ownsBus_iff s).mpr ho)
    have ht : t = { s with client := { s.client with busError := false } } := serviceBus_of_not_ownsBus hown
    rw [ht]
    exact ⟨fun ho => absurd ho hnot, fun _ => rfl, fun ho => absurd ho hnot, fun _ => rfl, fun ho => absurd ho hnot,
      fun _ => ⟨rfl, rfl⟩, fun ho => absurd ho hnot, fun _ => rfl⟩

/-! ## The slave windows -/

theorem windowHit_iff (s : State) (base size : Nat) :
    windowHit s base size = true ↔ s.bus.busy = true ∧ s.bus.ack = false ∧ s.bus.error = false
      ∧ base ≤ s.bus.address.toNat ∧ s.bus.address.toNat < base + size := by
  simp [windowHit, and_assoc]

/-- The window's base is a bus address (00_scope R8). -/
theorem intBase_lt (busID : Fin 2) : intBase busID < 2 ^ 32 := by
  have hid := busID.isLt
  unfold intBase spyBase
  omega

/-- The vector a request in the window names: one word of the window for each. -/
theorem intWindowVector_eq {s : State} (h : intBase s.client.busID ≤ s.bus.address.toNat) :
    intWindowVector s = BitVec.ofNat 8 ((s.bus.address.toNat - intBase s.client.busID) / 4) := by
  have hbase : (BitVec.ofNat 32 (intBase s.client.busID)).toNat = intBase s.client.busID := by
    rw [BitVec.toNat_ofNat, Nat.mod_eq_of_lt (intBase_lt _)]
  have hle : BitVec.ofNat 32 (intBase s.client.busID) ≤ s.bus.address := by
    rw [BitVec.le_def, hbase]
    exact h
  have hfield : (intWindowVector s).toNat =
      (s.bus.address - BitVec.ofNat 32 (intBase s.client.busID)).toNat / 4 % 2 ^ 8 :=
    toNat_extractLsb'_eq_div_mod _ 2 8
  apply BitVec.eq_of_toNat_eq
  rw [hfield, BitVec.toNat_sub_of_le hle, hbase, BitVec.toNat_ofNat]

/-- A write in the window acts on its vector and is acknowledged (60_exceptions R501). -/
theorem interruptWindow_of_write {s : State} (h : intSelected s = true)
    (hk : s.bus.kind = .writeWord ∨ s.bus.kind = .writeByte) :
    (interruptWindow s).bus = { s.bus with ack := true }
      ∧ (interruptWindow s).intr = (intWrite (intWindowVector s) (s.bus.data.getLsbD 0) s).intr := by
  rw [interruptWindow, if_pos h]
  rcases hk with hk | hk <;> rw [hk] <;> simp [hk]

/-- A read in the window answers the status bit of its vector (R502). -/
theorem interruptWindow_of_read {s : State} (h : intSelected s = true)
    (hk : s.bus.kind = .readWord ∨ s.bus.kind = .readByte) :
    interruptWindow s =
      { s with bus := { s.bus with ack := true, data := (intStatus s (intWindowVector s)).setWidth 32 } } := by
  rw [interruptWindow, if_pos h]
  rcases hk with hk | hk <;> rw [hk]

/-- A status bit read as a word keeps its number. -/
theorem toNat_setWidth_bit (b : BitVec 1) : (b.setWidth 32).toNat = b.toNat :=
  BitVec.toNat_setWidth_of_le (by decide)

/-- Settles O34: the request is outside the window, a write in it or a read in it. -/
theorem interruptWindowIsServedInStepTwo : Obligations.InterruptWindowIsServedInStepTwo := by
  intro s base hit v t
  have hselected : intSelected s = true ↔ hit := windowHit_iff s (intBase s.client.busID) intSize
  have hvector : hit → intWindowVector s = v := fun ⟨_, _, _, hle, _⟩ => intWindowVector_eq hle
  refine ⟨fun hn => if_neg fun hx => hn (hselected.mp hx), fun hh hk => ?write, fun hh hk => ?read,
    by simp [t], by simp [t]⟩
  case write =>
    rw [← hvector hh]
    exact interruptWindow_of_write (hselected.mpr hh) hk
  case read =>
    have ht : t = _ := interruptWindow_of_read (hselected.mpr hh) hk
    rw [ht, hvector hh]
    exact ⟨rfl, toNat_setWidth_bit _, rfl⟩

/-! ## SPY -/

/-- A SPY request that is no write is acknowledged with its data. -/
theorem spyRespond_of_read {s : State} (hk : ¬ (s.bus.kind = .writeWord ∨ s.bus.kind = .writeByte)) :
    ∃ v, spyRespond s = acknowledgeRead v s := by
  unfold spyRespond
  cases h : s.bus.kind
  case readWord | readByte => exact ⟨_, rfl⟩
  case writeWord | writeByte => simp [h] at hk

/-- A SPY request that writes stores to its sub-register and is acknowledged. -/
theorem spyRespond_of_write {s : State} (hk : s.bus.kind = .writeWord ∨ s.bus.kind = .writeByte) :
    ∃ r x, spyRespond s = acknowledge (spyWrite r x s) := by
  unfold spyRespond
  rcases hk with h | h <;> rw [h] <;> exact ⟨_, _, rfl⟩

/-- No sub-register is in the bus cells. -/
theorem spyWrite_bus (r : Option SpyReg) (x : Word) (s : State) : (spyWrite r x s).bus = s.bus := by
  rw [spyWrite_frame r x s]

/-- Settles O46: a read changes the bus cells alone; a write changes what a sub-register's store does, and the
acknowledge. -/
theorem spyCycleExecutesNothing : Obligations.SpyCycleExecutesNothing := by
  intro s hspy u t
  have hstep : step s = .next t := if_pos hspy
  obtain ⟨-, -, herror, -, -⟩ := (windowHit_iff u _ _).mp hspy
  by_cases hk : u.bus.kind = .writeWord ∨ u.bus.kind = .writeByte
  · obtain ⟨r, x, hx⟩ := spyRespond_of_write hk
    have ht : t = acknowledge (spyWrite r x u) := hx
    have hbus : t.bus = { u.bus with ack := true } := by rw [ht, acknowledge_bus, spyWrite_bus]
    refine ⟨hstep, by rw [hbus], by rw [hbus]; exact herror, fun _ => by rw [hbus], ?_⟩
    rw [hbus, ht]
    exact congrArg acknowledge (spyWrite_frame r x u)
  · obtain ⟨v, hv⟩ := spyRespond_of_read hk
    have ht : t = acknowledgeRead v u := hv
    refine ⟨hstep, ?_, ?_, fun hw => absurd hw hk, ?_⟩ <;> rw [ht]
    · rfl
    · exact herror
    · rfl

end Sys2Proof.Machine
end

section
/-! # An instruction after its operand fetch

For O31 and O44. Every instruction begins with the operand fetch of steps 6 and 7 (`exec_eq_fetch_bind`), which
changes little (`afterFetch_frame`); a DISPATCH then acts on the word its table gives it (`exec_dispatches`). -/

namespace Sys2Proof.Machine

/-- Every instruction begins with its operand fetch. -/
theorem exec_eq_fetch_bind (i : Instr) (s : State) :
    ∃ rest, exec i s = finish ((fetchOperands i.common s).bind rest) := by
  cases i <;> exact ⟨_, rfl⟩

/-- An instruction whose operand fetch dies does nothing after it. -/
theorem exec_of_fetch_die {i : Instr} {s t : State} {k : DieCause} (h : fetchOperands i.common s = .die k t) :
    exec i s = .next (raiseDie t) := by
  obtain ⟨rest, hrest⟩ := exec_eq_fetch_bind i s
  rw [hrest, h, Flow.bind_die, finish_die]

/-- What steps 6 and 7 leave unchanged, whatever the source. -/
theorem afterFetch_frame (c : Common) (s : State) :
    let u := afterFetch c s
    u.files = s.files ∧ u.run = s.run ∧ u.pcs.afterNextPC = s.pcs.afterNextPC
      ∧ (c.streams = false → u.client = s.client) := by
  have hsource : ∀ t, ((∃ v, mOperand c.mSrc (afterStream c s) = .go (v, t)) ∨
      ∃ k, mOperand c.mSrc (afterStream c s) = .die k t) →
      t.files = s.files ∧ t.run = s.run ∧ t.pcs.afterNextPC = s.pcs.afterNextPC
        ∧ (c.streams = false → t.client = s.client) := by
    intro t ht
    obtain ⟨hstream, -, -, -, -, hkeep⟩ := afterStream_frame c s
    have hclient : c.streams = false → (afterStream c s).client = s.client := fun hc => by rw [hkeep hc]
    rw [(mOperand_frame _ _ t ht).1]
    refine ⟨?_, ?_, ?_, hclient⟩ <;> rw [hstream]
  unfold afterFetch
  cases hx : mOperand c.mSrc (afterStream c s) with
  | go p => exact hsource p.2 (.inl ⟨p.1, hx⟩)
  | die k t => exact hsource t (.inr ⟨k, hx⟩)

/-! ## The dispatch word -/

/-- The masked field of a table index: the mask is below the field's width. -/
theorem toNat_and_lengthMask (x : Word) (dlen : BitVec 3) :
    (x.setWidth 12 &&& BitVec.ofNat 12 (2 ^ dlen.toNat - 1)).toNat = x.toNat % 2 ^ dlen.toNat := by
  have hle : dlen.toNat ≤ 12 := by have := dlen.isLt; omega
  have hmask : 2 ^ dlen.toNat - 1 < 2 ^ 12 :=
    Nat.lt_of_lt_of_le (Nat.sub_lt (Nat.two_pow_pos _) Nat.one_pos) (Nat.pow_le_pow_right (by decide) hle)
  rw [BitVec.toNat_and, BitVec.toNat_ofNat, Nat.mod_eq_of_lt hmask, Nat.and_two_pow_sub_one_eq_mod,
    BitVec.toNat_setWidth, Nat.mod_mod_of_dvd _ (Nat.pow_dvd_pow 2 hle)]

theorem oldspaceNumber_eq (s : State) : oldspaceNumber s = if oldspaceBit s then 1 else 0 := by
  have hbit : oldspaceBit s = true ↔ oldspaceNumber s = 1 := by
    rw [oldspaceBit, lv2Control_eq]
    exact getLsbD_iff_div_mod _ 5
  have hlt : oldspaceNumber s < 2 := Nat.mod_lt _ (by decide)
  split
  next h => exact hbit.mp h
  next h =>
    have hne := mt hbit.mpr h
    omega

theorem dispatchIndex_toNat (c : Common) (f : DispatchFields) (m : Word) (s : State) :
    (dispatchIndex c.aSrc f m s).toNat = tableIndex c f m s := by
  rw [dispatchIndex, tableIndex, BitVec.toNat_or, BitVec.toNat_or, BitVec.toNat_or, toNat_and_lengthMask,
    oldspaceNumber_eq, gcvNumber]
  cases f.oldEn <;> cases f.gcvEn <;> cases oldspaceBit s <;> cases gcVolatileBit s <;> rfl

theorem macroDispatchWord_eq (s : State) : macroDispatchWord s = macroWord s := by
  have hhalf : (currentMacro s).toNat =
      if s.stream.lc.toNat / 2 % 2 = 1 then s.stream.macroIR.toNat % 65536 else s.stream.macroIR.toNat / 65536 := by
    have hlt := s.stream.macroIR.isLt
    have hodd : s.stream.lc.getLsbD 1 = true ↔ s.stream.lc.toNat / 2 % 2 = 1 := getLsbD_iff_div_mod _ 1
    simp only [currentMacro, hodd]
    split <;> rw [toNat_extractLsb'_eq_div_mod] <;> omega
  have hlt := (currentMacro s).isLt
  have hindex : ((currentMacro s).extractLsb' 4 12).toNat = (currentMacro s).toNat / 16 := by
    rw [toNat_extractLsb'_eq_div_mod]
    omega
  rw [macroDispatchWord, hindex, hhalf, macroWord]

/-- The three-bit code of a dispatch word names a transfer when it is below 6 (30_encoding R155). -/
theorem transferOf_isSome_iff (w : Word) :
    (transferOf (w.extractLsb' 16 3)).isSome = true ↔ w.toNat / 2 ^ 16 % 8 < 6 := by
  have hcode : ∀ rpn : BitVec 3, (transferOf rpn).isSome = true ↔ rpn.toNat < 6 := by decide
  have hfield : (w.extractLsb' 16 3).toNat = w.toNat / 2 ^ 16 % 8 := toNat_extractLsb'_eq_div_mod w 16 3
  rw [hcode, hfield]

/-- A DISPATCH after its operand fetch (46_dispatch R430). -/
theorem runDispatch_of_fetchReady (pick : Word → State → Word × State) {c : Common} (f : DispatchFields) {s : State}
    (h : FetchReady c s) :
    runDispatch pick c f s =
      let p := pick (mValue c s) (latchConstant f.dconst (afterFetch c s))
      finish ((applyDispatchWord p.1 (mValue c s) f.lpc p.2).bind fun s8 => .go (endOfCycle c s8)) := by
  rw [runDispatch, fetchOperands_go h, Flow.bind_go]

/-- The constant latched before the lookup is no part of the index or of the table. -/
theorem readA_dispatchIndex_latchConstant (k : BitVec 10) (c : Common) (f : DispatchFields) (m : Word) (s : State) :
    readA (latchConstant k s) (dispatchIndex c.aSrc f m (latchConstant k s)) =
      s.files.amem.read (tableIndex c f m s) := by
  rw [← dispatchIndex_toNat]
  rfl

theorem macroDispatchWord_latchConstant (k : BitVec 10) (s : State) :
    macroDispatchWord (latchConstant k s) = macroWord s := by
  rw [← macroDispatchWord_eq]
  rfl

theorem execDispatch_of_fetchReady {c : Common} (f : DispatchFields) {s : State} (h : FetchReady c s) :
    execDispatch c f s =
      finish ((applyDispatchWord (s.files.amem.read (tableIndex c f (mValue c s) (afterFetch c s))) (mValue c s) f.lpc
        (latchConstant f.dconst (afterFetch c s))).bind fun s8 => .go (endOfCycle c s8)) := by
  obtain ⟨hfiles, -⟩ := afterFetch_frame c s
  rw [execDispatch, runDispatch_of_fetchReady _ f h]
  dsimp only
  rw [readA_dispatchIndex_latchConstant, hfiles]

theorem execDispatchMir_of_fetchReady {c : Common} (f : DispatchFields) {s : State} (h : FetchReady c s) :
    execDispatchMir c f s =
      let u := latchConstant f.dconst (afterFetch c s)
      finish ((applyDispatchWord (macroWord (afterFetch c s)) (mValue c s) f.lpc
        { u with stalls := { u.stalls with macroDispatch := u.cfg.midStallCycles } }).bind
          fun s8 => .go (endOfCycle c s8)) := by
  rw [execDispatchMir, runDispatch_of_fetchReady _ f h]
  dsimp only
  rw [macroDispatchWord_latchConstant]

/-- Both DISPATCH instructions act on the word the statements name, in a state that differs from the one operand
fetch left in the dispatch constant and the countdown stall alone. -/
theorem exec_dispatches {c : Common} {f : DispatchFields} {s : State} {i : Instr} {w : Word}
    (hi : (i, w) ∈ [(Instr.dispatch c f, s.files.amem.read (tableIndex c f (mValue c s) (afterFetch c s))),
      (.dispatchMir c f, macroWord (afterFetch c s))]) (h : FetchReady c s) :
    ∃ d x, exec i s =
      finish ((applyDispatchWord w (mValue c s) f.lpc { afterFetch c s with data := d, stalls := x }).bind
        fun s8 => .go (endOfCycle c s8)) := by
  simp only [List.mem_cons, Prod.mk.injEq, List.not_mem_nil, or_false] at hi
  rcases hi with ⟨rfl, rfl⟩ | ⟨rfl, rfl⟩
  · exact ⟨_, _, execDispatch_of_fetchReady f h⟩
  · exact ⟨_, _, execDispatchMir_of_fetchReady f h⟩

theorem applyDispatchWord_of_illegal {w : Word} (h : transferOf (w.extractLsb' 16 3) = none) (m : Word)
    (lpc : Bool) (s : State) : applyDispatchWord w m lpc s = .die .illegalRpn s := by
  rw [applyDispatchWord, h]

theorem applyDispatchWord_of_legal {w : Word} {tr : Transfer} (h : transferOf (w.extractLsb' 16 3) = some tr)
    (m : Word) (lpc : Bool) (s : State) :
    applyDispatchWord w m lpc s =
      (if w.getLsbD 19 then startAccess m .read false .dataRead s else .go s).bind fun t =>
        transfer tr (w.extractLsb' 0 16) lpc t := by
  rw [applyDispatchWord, h]

/-! ## A second transaction -/

theorem not_canStart {v : Word} {kind : AccessKind} {force : Bool} {s : State} (hf : ¬ FaultRule s v kind force)
    (hpending : s.client.busPending ≠ .idle) : ¬ CanStart v kind force s := fun h =>
  ((canStart_iff v kind force s).mp h).elim hf hpending

/-- What the refused operation leaves: VMA and the translator's latches apart, everything is as it was. -/
theorem startAccess_refused {v : Word} {kind : AccessKind} {force : Bool} (pend : BusPending) {s : State}
    (hf : ¬ FaultRule s v kind force) (hpending : s.client.busPending ≠ .idle) :
    ∃ vm, startAccess v kind force pend s = .die .busIssueWhilePending { s with vm := vm }
      ∧ vm.vma = v ∧ vm.pageFault = false := by
  let u : State := { s with vm := { s.vm with vma := v } }
  have hdie := startAccess_die v kind force pend s (not_canStart hf hpending)
  obtain ⟨hframe, -⟩ := startAccess_frame v kind force pend s _ (.inr ⟨_, hdie⟩)
  obtain ⟨-, -, -, hvma, -⟩ := resolve_vm v kind force u
  have hnofault : (resolve v kind force u).vm.pageFault = false :=
    Bool.eq_false_iff.mpr fun hx => hf ((resolve_pageFault_iff v kind force u).mp hx)
  refine ⟨(resolve v kind force u).vm, ?_, hvma, hnofault⟩
  rw [hdie, hframe]
  simp

theorem writeback_refused {f : FuncDest} {kind : AccessKind} {force : Bool} (hstart : f.start = some (kind, force))
    (m : BitVec 6) {o : Word} {s : State} (hf : ¬ FaultRule s o kind force) (hpending : s.client.busPending ≠ .idle) :
    ∃ vm, writeback (.func f m) o s = .die .busIssueWhilePending { s with vm := vm } := by
  obtain ⟨vm, hdie, -⟩ := startAccess_refused kind.pending hf hpending
  exact ⟨vm, by rw [writeback_func, funcDest_of_start hstart, hdie, Flow.bind_die]⟩

/-- The refused instruction-stream step ends the instruction. -/
theorem exec_stream_refused {i : Instr} {s : State} (hstream : i.common.streams = true)
    (hf : ¬ FaultRule s (streamAddress s) .read false) (hpending : s.client.busPending ≠ .idle) :
    ∃ vm, exec i s = .next (raiseDie { s with vm := vm }) := by
  obtain ⟨vm, hdie, -⟩ := startAccess_refused .streamRead hf hpending
  have hstep : streamStep i.common.streams s = .die .busIssueWhilePending { s with vm := vm } := by
    rw [hstream, streamStep_true, hdie, Flow.bind_die]
  exact ⟨vm, exec_of_fetch_die (k := .busIssueWhilePending) (congrArg (Flow.bind · _) hstep)⟩

/-- A DISPATCH whose start-read is refused dies in the state its operand fetch left, but for the dispatch
constant, the countdown stall and, with a legal code, the refused translation. -/
theorem applyDispatchWord_refused {w m : Word} (lpc : Bool) {s : State} (hread : w.getLsbD 19 = true)
    (hf : ¬ FaultRule s m .read false) (hpending : s.client.busPending ≠ .idle) :
    ∃ k vm, applyDispatchWord w m lpc s = .die k { s with vm := vm }
      ∧ (w.toNat / 2 ^ 16 % 8 < 6 → vm.vma = m ∧ vm.pageFault = false) := by
  have hlegal := transferOf_isSome_iff w
  cases htr : transferOf (w.extractLsb' 16 3) with
  | none =>
    rw [htr] at hlegal
    exact ⟨_, s.vm, applyDispatchWord_of_illegal htr m lpc s, fun hcode => absurd (hlegal.mpr hcode) (by simp)⟩
  | some tr =>
    obtain ⟨vm, hdie, hvma, hfault⟩ := startAccess_refused .dataRead hf hpending
    refine ⟨.busIssueWhilePending, vm, ?_, fun _ => ⟨hvma, hfault⟩⟩
    rw [applyDispatchWord_of_legal htr, if_pos hread, hdie, Flow.bind_die]

/-- Settles O31: at each of the three places the refused operation changes `vm` alone, and ends the cycle. -/
theorem secondTransactionDies : Obligations.SecondTransactionDies := by
  refine ⟨fun f kind force m o s hstart hf hpending => ?destination, fun i s hstream hf hpending => ?stream,
    fun c f s i w => ?dispatch⟩
  case destination =>
    obtain ⟨vm, hdie⟩ := writeback_refused hstart m hf hpending
    exact ⟨_, hdie, rfl, rfl⟩
  case stream =>
    obtain ⟨vm, hexec⟩ := exec_stream_refused hstream hf hpending
    exact ⟨_, hexec, ⟨rfl, rfl⟩, rfl, rfl, rfl⟩
  case dispatch =>
    intro u m hi hready hread hf hpending
    obtain ⟨hfiles, -⟩ := afterFetch_frame c s
    obtain ⟨d, x, hexec⟩ := exec_dispatches hi hready
    obtain ⟨k, vm, hdie, hvm⟩ :=
      applyDispatchWord_refused (s := { u with data := d, stalls := x }) f.lpc hread hf hpending
    rw [hdie, Flow.bind_die, finish_die] at hexec
    exact ⟨_, hexec, ⟨rfl, rfl⟩, rfl, rfl, hfiles, rfl, rfl, hvm⟩

end Sys2Proof.Machine
end

section
/-! # Documented instructions complete

For O44. With no transaction outstanding and the after-next slot empty, each part of an instruction goes through
and leaves the run state; `Survives` says so of the whole. -/

namespace Sys2Proof.Machine

/-- Every operand of a legal instruction is documented (30_encoding R157). -/
theorem legal_iff (i : Instr) :
    i.legal = true ↔ i.common.mSrc.legal = true ∧ (∀ d, i.dest = some d → d.legal = true)
      ∧ (∀ f, i.aluFields = some f → f.out.legal = true) ∧ ∀ f, i.jumpFields = some f → f.test.legal = true := by
  rw [Instr.legal, Bool.and_eq_true, Bool.and_eq_true, Bool.and_eq_true, and_assoc, and_assoc]
  cases i.dest <;> cases i.aluFields <;> cases i.jumpFields <;> simp

/-- A part of a cycle goes through and leaves the run state. -/
def Flow.Proceeds (s : State) (x : Flow State) : Prop := ∃ t, x = .go t ∧ t.run = s.run

/-- An outcome is a next state without a new die-request. -/
def Survives (s : State) (x : Host.Outcome State Fault Refusal) : Prop :=
  ∃ t, x = .next t ∧ t.run.dieRequest = s.run.dieRequest

/-- The end of the cycle, after an update `g` that leaves the run state, raises no die-request. -/
theorem Flow.Proceeds.survives {s u : State} {x : Flow State} (h : x.Proceeds u) (hu : u.run = s.run) (c : Common)
    (g : State → State) (hg : ∀ t, (g t).run = t.run) :
    Survives s (finish (x.bind fun t => .go (endOfCycle c (g t)))) := by
  obtain ⟨t, rfl, hrun⟩ := h
  refine ⟨endOfCycle c (g t), rfl, ?_⟩
  rw [endOfCycle_run, hg, hrun, hu]

/-! ## Destinations and transfers -/

theorem startAccess_proceeds {v : Word} {kind : AccessKind} {force : Bool} (pend : BusPending) {s : State}
    (h : s.client.busPending = .idle) :
    ∃ t, startAccess v kind force pend s = .go t ∧ t.run = s.run ∧ t.pcs = s.pcs := by
  obtain ⟨t, ht⟩ := startAccess_go v kind force pend s (.inr h)
  obtain ⟨hframe, -⟩ := startAccess_frame v kind force pend s t (.inl ht)
  exact ⟨t, ht, by rw [hframe], by rw [hframe]⟩

theorem funcDest_run {f : FuncDest} {o : Word} {s t : State} (h : funcDest f o s = .go t) : t.run = s.run := by
  cases f
  case vmaStartRead | vmaStartWrite | vmaStartReadForce | vmaStartWriteForce =>
    rw [(startAccess_frame _ _ _ _ _ _ (.inl h)).1]
  all_goals cases h
  case interruptClear => simp
  all_goals rfl

theorem writeback_proceeds {d : Dest} {o : Word} {s : State} (h : DestReady d o s) :
    (writeback d o s).Proceeds s := by
  cases d with
  | a addr => exact ⟨writeA addr o s, rfl, rfl⟩
  | func f m =>
    obtain ⟨t, ht⟩ := funcDest_go f o s m h
    refine ⟨writeMReg m o t, by rw [writeback_func, ht, Flow.bind_go], ?_⟩
    rw [← funcDest_run ht]
    simp

theorem transfer_proceeds (tr : Transfer) (target : MicroAddr) (lpc : Bool) {s : State}
    (h : s.pcs.afterNextPC = none) : (transfer tr target lpc s).Proceeds s := by
  obtain ⟨t, ht⟩ := transfer_go tr target lpc s fun _ => h
  exact ⟨t, ht, by rw [transfer_frame tr target lpc s t (.inl ht)]⟩

/-- A dispatch word with a legal code: its start-read finds no transaction, its transfer an empty slot. -/
theorem applyDispatchWord_proceeds {w : Word} (m : Word) (lpc : Bool) {s : State}
    (hcode : w.toNat / 2 ^ 16 % 8 < 6) (hidle : s.client.busPending = .idle) (hslot : s.pcs.afterNextPC = none) :
    (applyDispatchWord w m lpc s).Proceeds s := by
  obtain ⟨tr, htr⟩ := Option.isSome_iff_exists.mp ((transferOf_isSome_iff w).mpr hcode)
  have hread : ∃ t, (if w.getLsbD 19 then startAccess m .read false .dataRead s else .go s) = .go t
      ∧ t.run = s.run ∧ t.pcs = s.pcs := by
    split
    · exact startAccess_proceeds .dataRead hidle
    · exact ⟨s, rfl, rfl, rfl⟩
  obtain ⟨t, ht, htrun, htpcs⟩ := hread
  obtain ⟨u, hu, hurun⟩ := transfer_proceeds tr (w.extractLsb' 0 16) lpc (htpcs ▸ hslot : t.pcs.afterNextPC = none)
  exact ⟨u, by rw [applyDispatchWord_of_legal htr, ht, Flow.bind_go, hu], hurun.trans htrun⟩

/-- A documented destination can be written: it starts no memory operation, or none is outstanding. -/
theorem destReady_of_legal {d : Dest} (o : Word) {s : State} (hlegal : d.legal = true)
    (hidle : d.starts = true → s.client.busPending = .idle) : DestReady d o s := by
  cases d with
  | a addr => trivial
  | func f m =>
    refine ⟨hlegal, ?_⟩
    cases hstart : f.start with
    | none => trivial
    | some p => exact .inr (hidle (by simp [Dest.starts, hstart]))

theorem outputSelector_ne_none {out : OutSel} (h : out.legal = true) (r32 : Word) (carry : Bool) (a q : Word) :
    outputSelector out r32 carry a q ≠ none := by
  cases out
  case undefined => simp [OutSel.legal] at h
  all_goals exact Option.some_ne_none _

theorem testHolds_ne_none {t : JumpTest} (h : t.legal = true) (a m : Word) (s : State) :
    testHolds t a m s ≠ none := by
  cases t with
  | bit rot => exact Option.some_ne_none _
  | cond c =>
    cases c
    case undefined => simp [JumpTest.legal, Condition.legal] at h
    all_goals exact Option.some_ne_none _

/-! ## The four formats -/

section
variable {c : Common} {s : State} (hsource : c.mSrc.legal = true) (hidle : s.client.busPending = .idle)
  (hslot : s.pcs.afterNextPC = none)
include hsource hidle hslot

theorem fetchReady_of_idle : FetchReady c s := ⟨fun _ => .inr hidle, hsource, fun _ => .inr hslot⟩

omit hsource hslot in
/-- The transaction outstanding after operand fetch is the instruction-stream step's, if any. -/
theorem afterFetch_idle (h : c.streams = false) : (afterFetch c s).client.busPending = .idle := by
  obtain ⟨-, -, -, hclient⟩ := afterFetch_frame c s
  rw [hclient h, hidle]

omit hsource hslot in
theorem destReady_afterFetch {d : Dest} (o : Word) (hlegal : d.legal = true)
    (hone : c.streams = true → d.starts = false) : DestReady d o (afterFetch c s) :=
  destReady_of_legal o hlegal fun hstarts => afterFetch_idle hidle (Bool.eq_false_iff.mpr fun hc => by
    simp [hone hc] at hstarts)

theorem runAlu_survives {f : AluFields} (op : AluOp) (hdest : f.dest.legal = true) (hout : f.out.legal = true)
    (hone : c.streams = true → f.dest.starts = false) : Survives s (runAlu op c f s) := by
  obtain ⟨-, hrun, -⟩ := afterFetch_frame c s
  rw [runAlu, fetchOperands_go (fetchReady_of_idle hsource hidle hslot), Flow.bind_go]
  dsimp only
  split
  next hnone => exact absurd hnone (outputSelector_ne_none hout _ _ _ _)
  next o _ => exact (writeback_proceeds (destReady_afterFetch hidle o hdest hone)).survives hrun c _ fun _ => rfl

theorem runByte_survives {f : ByteFields} (rsrc rmask : Bool) (hdest : f.dest.legal = true)
    (hone : c.streams = true → f.dest.starts = false) : Survives s (runByte rsrc rmask c f s) := by
  obtain ⟨-, hrun, -⟩ := afterFetch_frame c s
  rw [runByte, fetchOperands_go (fetchReady_of_idle hsource hidle hslot), Flow.bind_go]
  exact (writeback_proceeds (destReady_afterFetch hidle _ hdest hone)).survives hrun c id fun _ => rfl

theorem runJump_survives {f : JumpFields} (tr : Transfer) (htest : f.test.legal = true) :
    Survives s (runJump tr c f s) := by
  obtain ⟨-, hrun, hafter, -⟩ := afterFetch_frame c s
  rw [runJump, fetchOperands_go (fetchReady_of_idle hsource hidle hslot), Flow.bind_go]
  dsimp only
  split
  next hnone => exact absurd hnone (testHolds_ne_none htest _ _ _)
  next b _ =>
    refine Flow.Proceeds.survives ?_ hrun c id fun _ => rfl
    split
    · exact transfer_proceeds tr f.addr f.lpc (hafter.trans hslot)
    · exact ⟨_, rfl, rfl⟩

theorem exec_dispatches_survives {f : DispatchFields} {i : Instr} {w : Word}
    (hi : (i, w) ∈ [(Instr.dispatch c f, s.files.amem.read (tableIndex c f (mValue c s) (afterFetch c s))),
      (.dispatchMir c f, macroWord (afterFetch c s))]) (hcode : w.toNat / 2 ^ 16 % 8 < 6) (hstream : c.streams = false) :
    Survives s (exec i s) := by
  obtain ⟨-, hrun, hafter, -⟩ := afterFetch_frame c s
  obtain ⟨d, x, hexec⟩ := exec_dispatches hi (fetchReady_of_idle hsource hidle hslot)
  rw [hexec]
  exact (applyDispatchWord_proceeds _ f.lpc hcode (s := { afterFetch c s with data := d, stalls := x })
    (afterFetch_idle hidle hstream) (hafter.trans hslot)).survives hrun c id fun _ => rfl

end

/-- Settles O44, format by format. -/
theorem legalInstructionsComplete : Obligations.LegalInstructionsComplete := by
  intro i s hlegal hidle hslot hdie hone hdispatch hdispatchMir
  obtain ⟨hsource, hdest, hout, htest⟩ := (legal_iff i).mp hlegal
  have hsurvives : Survives s (exec i s) := by
    cases i
    case byteLow | byteSeldep | byteLdb | byteDpb =>
      exact runByte_survives hsource hidle hslot _ _ (hdest _ rfl) fun hc => (hone hc).2 _ rfl
    case jumpXctNext | jump | callXctNext | call | retXctNext | ret =>
      exact runJump_survives hsource hidle hslot _ (htest _ rfl)
    case dispatch c f =>
      exact exec_dispatches_survives hsource hidle hslot (.head _) (hdispatch c f rfl)
        (Bool.eq_false_iff.mpr fun hc => Bool.noConfusion (hone hc).1)
    case dispatchMir c f =>
      exact exec_dispatches_survives hsource hidle hslot (.tail _ (.head _)) (hdispatchMir c f rfl)
        (Bool.eq_false_iff.mpr fun hc => Bool.noConfusion (hone hc).1)
    all_goals
      exact runAlu_survives hsource hidle hslot _ (hdest _ rfl) (hout _ rfl) fun hc => (hone hc).2 _ rfl
  obtain ⟨t, ht, hkept⟩ := hsurvives
  exact ⟨t, ht, hkept.trans hdie⟩

end Sys2Proof.Machine
end

section
/-! # What an instruction is made of

For O42. `InstrAct` lists the acts steps 6 to 11 of an instruction are built from, each with what the instruction
must name for the act to be one of its own; `exec_instrActs` says that an instruction is a chain of them, whether
it completes or dies. A frame of every instruction is then one fact per act. -/

namespace Sys2Proof.Machine

/-- The acts of an instruction: what one of them makes of a state `s`. -/
inductive InstrAct (i : Instr) (s : State) : State → Prop
  /-- A memory operation (20_memory R101). -/
  | access (hi : i.mayStart = true) (v : Word) (kind : AccessKind) (force : Bool) (pend : BusPending) {t : State}
      (h : (startAccess v kind force pend s).Leaves t) : InstrAct i s t
  /-- The instruction-stream step counts `LC` (40_cycle R198). -/
  | countLc (hi : i.common.streams = true) (lc : Word) :
      InstrAct i s { s with stream := { s.stream with lc := lc } }
  /-- Step 7. -/
  | source {t : State}
      (h : (∃ v, mOperand i.common.mSrc s = .go (v, t)) ∨ ∃ k, mOperand i.common.mSrc s = .die k t) : InstrAct i s t
  /-- A DISPATCH latches its constant (46_dispatch R431). -/
  | latchConstant (hi : i.isDispatch = true) (k : BitVec 10) : InstrAct i s (latchConstant k s)
  /-- `DISPATCH MIR` arms its countdown stall (R440). -/
  | armCountdown (hi : i.isDispatch = true) (n : Nat) :
      InstrAct i s { s with stalls := { s.stalls with macroDispatch := n } }
  /-- Step 9, the functional half of the destination. -/
  | funcDest {f : FuncDest} (hi : i.func = some f) (o : Word) {t : State} (h : (funcDest f o s).Leaves t) :
      InstrAct i s t
  /-- Step 9, the A-memory word of the destination. -/
  | storeA {a : BitVec 12} (hi : i.dest = some (.a a)) (o : Word) : InstrAct i s (writeA a o s)
  /-- Step 9, the M register of the destination. -/
  | storeM {f : FuncDest} {m : BitVec 6} (hi : i.dest = some (.func f m)) (o : Word) : InstrAct i s (writeMReg m o s)
  /-- Step 10 (42_alu R345). -/
  | updateQ {f : AluFields} (hi : i.aluFields = some f) (r : Word) :
      InstrAct i s { s with data := { s.data with q := updateQ f.qctl s.data.q r } }
  /-- A control transfer (45_jump R411 to R416). -/
  | transfer (hi : i.transfers = true) (tr : Transfer) (target : MicroAddr) (lpc : Bool) {t : State}
      (h : (transfer tr target lpc s).Leaves t) : InstrAct i s t
  /-- Step 11. -/
  | endOfCycle : InstrAct i s (endOfCycle i.common s)
  /-- Taking `Die` (60_exceptions R490). -/
  | die : InstrAct i s (raiseDie s)

/-- A chain of an instruction's acts. -/
inductive InstrActs (i : Instr) (s : State) : State → Prop
  | refl : InstrActs i s s
  | tail {t u : State} (h : InstrActs i s t) (ha : InstrAct i t u) : InstrActs i s u

theorem InstrAct.acts {i : Instr} {s t : State} (h : InstrAct i s t) : InstrActs i s t := .tail .refl h

theorem InstrActs.trans {i : Instr} {s t u : State} (h : InstrActs i s t) (h' : InstrActs i t u) :
    InstrActs i s u := by
  induction h' with
  | refl => exact h
  | tail _ ha ih => exact ih.tail ha

/-- A part of an instruction begun in `s` is a chain of its acts, whether it goes on (in the state `out` finds in
its value) or dies. -/
def Flow.InstrActsFrom {α : Type} (i : Instr) (out : α → State) (s : State) : Flow α → Prop
  | .go a => InstrActs i s (out a)
  | .die _ t => InstrActs i s t

/-- An outcome is a next state that a chain of the instruction's acts leads to. -/
def CompletesByInstrActs (i : Instr) (s : State) (x : Host.Outcome State Fault Refusal) : Prop :=
  ∃ t, x = .next t ∧ InstrActs i s t

section
variable {i : Instr} {s t : State}

theorem Flow.InstrActsFrom.after {α : Type} {out : α → State} {x : Flow α} (hx : x.InstrActsFrom i out t)
    (h : InstrActs i s t) : x.InstrActsFrom i out s := by
  cases x <;> exact h.trans hx

theorem Flow.InstrActsFrom.bind {α β : Type} {out : α → State} {out' : β → State} {x : Flow α} {f : α → Flow β}
    (hx : x.InstrActsFrom i out s) (hf : ∀ a, (f a).InstrActsFrom i out' (out a)) :
    (x.bind f).InstrActsFrom i out' s := by
  cases x with
  | go a => exact (hf a).after hx
  | die k t => exact hx

/-- A part that is one act. -/
theorem Flow.instrActsFrom_of_act {x : Flow State} (h : ∀ t, x.Leaves t → InstrAct i s t) :
    x.InstrActsFrom i id s := by
  cases x with
  | go t => exact (h t (.inl rfl)).acts
  | die k t => exact (h t (.inr ⟨k, rfl⟩)).acts

/-- The end of the cycle, of an instruction that completed or died. -/
theorem Flow.InstrActsFrom.finish {x : Flow State} (hx : x.InstrActsFrom i id s) :
    CompletesByInstrActs i s (Machine.finish x) := by
  cases x with
  | go t => exact ⟨t, rfl, hx⟩
  | die k t => exact ⟨raiseDie t, rfl, hx.tail .die⟩

/-! ## The parts of an instruction -/

theorem mayStart_of_streams (h : i.common.streams = true) : i.mayStart = true := by
  simp [Instr.mayStart, h]

theorem mayStart_of_isDispatch (h : i.isDispatch = true) : i.mayStart = true := by
  simp [Instr.mayStart, h]

theorem func_eq_some_iff {f : FuncDest} : i.func = some f ↔ ∃ m, i.dest = some (.func f m) := by
  unfold Instr.func
  split
  next g m hd => simp [hd]
  next hd => exact ⟨fun h => (nomatch h), fun ⟨m, hm⟩ => absurd hm (hd f m)⟩

theorem mayStart_of_start {f : FuncDest} (h : i.func = some f) (hstart : f.start.isSome = true) :
    i.mayStart = true := by
  obtain ⟨m, hm⟩ := func_eq_some_iff.mp h
  simp [Instr.mayStart, hm, Dest.starts, hstart]

theorem streamStep_instrActs (s : State) : (streamStep i.common.streams s).InstrActsFrom i id s := by
  cases hc : i.common.streams with
  | false => exact .refl
  | true =>
    rw [streamStep_true]
    exact (Flow.instrActsFrom_of_act fun _ => .access (mayStart_of_streams hc) _ _ _ _).bind fun t =>
      (InstrAct.countLc hc _).acts

theorem mOperand_instrActs (s : State) : (mOperand i.common.mSrc s).InstrActsFrom i Prod.snd s := by
  cases hx : mOperand i.common.mSrc s with
  | go p => exact (InstrAct.source (.inl ⟨p.1, hx⟩)).acts
  | die k t => exact (InstrAct.source (.inr ⟨k, hx⟩)).acts

theorem fetchOperands_instrActs (s : State) :
    (fetchOperands i.common s).InstrActsFrom i (fun p => p.2.2) s :=
  (streamStep_instrActs s).bind fun s6 => (mOperand_instrActs s6).bind fun _ => .refl

theorem writeback_instrActs {d : Dest} (hd : i.dest = some d) (o : Word) (s : State) :
    (writeback d o s).InstrActsFrom i id s := by
  cases d with
  | a addr => exact (InstrAct.storeA hd o).acts
  | func f m =>
    rw [writeback_func]
    have hf : i.func = some f := func_eq_some_iff.mpr ⟨m, hd⟩
    exact (Flow.instrActsFrom_of_act fun _ => .funcDest hf o).bind fun t => (InstrAct.storeM hd o).acts

theorem transfer_instrActs (hi : i.transfers = true) (tr : Transfer) (target : MicroAddr) (lpc : Bool) (s : State) :
    (transfer tr target lpc s).InstrActsFrom i id s :=
  Flow.instrActsFrom_of_act fun _ => .transfer hi tr target lpc

theorem applyDispatchWord_instrActs (hi : i.isDispatch = true) (htr : i.transfers = true) (w m : Word) (lpc : Bool)
    (s : State) : (applyDispatchWord w m lpc s).InstrActsFrom i id s := by
  unfold applyDispatchWord
  split
  · exact .refl
  next tr _ =>
    refine Flow.InstrActsFrom.bind (out := id) ?_ fun t => transfer_instrActs htr tr _ lpc t
    split
    · exact Flow.instrActsFrom_of_act fun _ => .access (mayStart_of_isDispatch hi) _ _ _ _
    · exact .refl

/-! ## The instructions, format by format -/

theorem runAlu_instrActs {f : AluFields} (hf : i.aluFields = some f) (hd : i.dest = some f.dest) (op : AluOp)
    (s : State) : CompletesByInstrActs i s (runAlu op i.common f s) := by
  refine ((fetchOperands_instrActs s).bind ?_).finish
  rintro ⟨a, m, s7⟩
  dsimp only
  split
  · exact .refl
  · exact (writeback_instrActs hd _ s7).bind fun s9 => (InstrAct.updateQ hf _).acts.tail .endOfCycle

theorem runByte_instrActs {f : ByteFields} (hd : i.dest = some f.dest) (rsrc rmask : Bool) (s : State) :
    CompletesByInstrActs i s (runByte rsrc rmask i.common f s) := by
  refine ((fetchOperands_instrActs s).bind ?_).finish
  rintro ⟨a, m, s7⟩
  exact (writeback_instrActs hd _ s7).bind fun s9 => InstrAct.endOfCycle.acts

theorem runJump_instrActs (htr : i.transfers = true) (f : JumpFields) (tr : Transfer) (s : State) :
    CompletesByInstrActs i s (runJump tr i.common f s) := by
  refine ((fetchOperands_instrActs s).bind ?_).finish
  rintro ⟨a, m, s7⟩
  dsimp only
  split
  · exact .refl
  · refine Flow.InstrActsFrom.bind (out := id) ?_ fun s8 => InstrAct.endOfCycle.acts
    split
    · exact transfer_instrActs htr _ _ _ s7
    · exact .refl

theorem runDispatch_instrActs (hi : i.isDispatch = true) (htr : i.transfers = true)
    {pick : Word → State → Word × State} (hpick : ∀ m t, InstrActs i t (pick m t).2) (f : DispatchFields) (s : State) :
    CompletesByInstrActs i s (runDispatch pick i.common f s) := by
  refine ((fetchOperands_instrActs s).bind ?_).finish
  rintro ⟨a, m, s7⟩
  have hword : InstrActs i s7 (pick m (latchConstant f.dconst s7)).2 :=
    (InstrAct.latchConstant hi _).acts.trans (hpick m _)
  exact ((applyDispatchWord_instrActs hi htr _ m f.lpc _).after hword).bind fun s8 => InstrAct.endOfCycle.acts

end

theorem execDispatch_instrActs (c : Common) (f : DispatchFields) (s : State) :
    CompletesByInstrActs (.dispatch c f) s (execDispatch c f s) := by
  unfold execDispatch
  exact runDispatch_instrActs (i := .dispatch c f) rfl rfl (fun _ _ => .refl) f s

theorem execDispatchMir_instrActs (c : Common) (f : DispatchFields) (s : State) :
    CompletesByInstrActs (.dispatchMir c f) s (execDispatchMir c f s) := by
  unfold execDispatchMir
  exact runDispatch_instrActs (i := .dispatchMir c f) rfl rfl (fun _ _ => (InstrAct.armCountdown rfl _).acts) f s

/-- An instruction is a chain of its acts. -/
theorem exec_instrActs (i : Instr) (s : State) : CompletesByInstrActs i s (exec i s) := by
  cases i
  case byteLow | byteSeldep | byteLdb | byteDpb => exact runByte_instrActs rfl _ _ s
  case jumpXctNext | jump | callXctNext | call | retXctNext | ret => exact runJump_instrActs rfl _ _ s
  case dispatch => exact execDispatch_instrActs _ _ s
  case dispatchMir => exact execDispatchMir_instrActs _ _ s
  all_goals exact runAlu_instrActs rfl rfl _ s

end Sys2Proof.Machine
end

section
/-! # The registers an instruction does not name

For O42. `RegisterFrame` names the clauses of the statement; it composes, and every act of an instruction has it. -/

namespace Sys2Proof.Machine

/-- Each register is the same in `s` and `t` unless the instruction's format, M source or destination names it. -/
structure RegisterFrame (i : Instr) (s t : State) : Prop where
  q : (∀ f, i.aluFields = some f → f.qctl = .keep) → t.data.q = s.data.q
  mult : i.func ≠ some .multiplierInput → t.data.multIn = s.data.multIn ∧ t.data.multFT = s.data.multFT
  pdlPointer : i.common.mSrc ≠ .cPdlPointerPop → i.func ≠ some .pdlPointer → i.func ≠ some .cPdlPointerPush →
    t.data.pdlPointer = s.data.pdlPointer
  pdlIndex : i.func ≠ some .pdlIndex → t.data.pdlIndex = s.data.pdlIndex
  dispatchConstant : i.isDispatch = false → t.data.dispatchConstant = s.data.dispatchConstant
  macroIR : t.stream.macroIR = s.stream.macroIR
  lc : i.common.streams = false → i.func ≠ some .lc → t.stream.lc = s.stream.lc
  vma : i.mayStart = false → i.func ≠ some .vma → t.vm.vma = s.vm.vma
  md : i.func ≠ some .md → t.vm.md = s.vm.md
  translator : i.mayStart = false → t.vm.pageFault = s.vm.pageFault ∧ t.vm.physAddr = s.vm.physAddr
    ∧ t.vm.byteMode = s.vm.byteMode ∧ t.vm.byteSel = s.vm.byteSel
    ∧ t.vm.cachedGeneration = s.vm.cachedGeneration ∧ t.client = s.client ∧ t.requests = s.requests
  intr : i.func ≠ some .interruptClear → t.intr = s.intr
  dpMode : i.func ≠ some .dpMode → t.modes.dpMode = s.modes.dpMode
  rgMode : i.func ≠ some .rgMode → t.modes.rgMode = s.modes.rgMode
  statCounter : i.func ≠ some .statCounter → t.modes.statCounter = s.modes.statCounter
  auxStatCounter : i.func ≠ some .statCounterAux → t.modes.auxStatCounter = s.modes.auxStatCounter
  spyModes : t.modes.configReg = s.modes.configReg ∧ t.modes.procMode = s.modes.procMode
  overlay : i.func ≠ some .imodLow → i.func ≠ some .imodHigh → t.overlay = s.overlay
  busClient : t.client.busError = s.client.busError ∧ t.client.busID = s.client.busID
  outside : t.bus = s.bus ∧ t.cfg = s.cfg ∧ t.inputs = s.inputs

variable {i : Instr} {s t u : State}

/-- What leaves every group of registers has the frame, whatever the instruction. -/
theorem RegisterFrame.of_eq (hdata : t.data = s.data) (hstream : t.stream = s.stream) (hvm : t.vm = s.vm)
    (hintr : t.intr = s.intr) (hmodes : t.modes = s.modes) (hoverlay : t.overlay = s.overlay)
    (hclient : t.client = s.client) (hreq : t.requests = s.requests)
    (hout : t.bus = s.bus ∧ t.cfg = s.cfg ∧ t.inputs = s.inputs) : RegisterFrame i s t := by
  constructor <;> simp [hdata, hstream, hvm, hintr, hmodes, hoverlay, hclient, hreq, hout]

theorem RegisterFrame.refl : RegisterFrame i s s :=
  .of_eq rfl rfl rfl rfl rfl rfl rfl rfl ⟨rfl, rfl, rfl⟩

theorem RegisterFrame.trans (h : RegisterFrame i s t) (h' : RegisterFrame i t u) : RegisterFrame i s u where
  q := fun hq => (h'.q hq).trans (h.q hq)
  mult := fun hf => by simp [h'.mult hf, h.mult hf]
  pdlPointer := fun hs hf hp => (h'.pdlPointer hs hf hp).trans (h.pdlPointer hs hf hp)
  pdlIndex := fun hf => (h'.pdlIndex hf).trans (h.pdlIndex hf)
  dispatchConstant := fun hi => (h'.dispatchConstant hi).trans (h.dispatchConstant hi)
  macroIR := h'.macroIR.trans h.macroIR
  lc := fun hs hf => (h'.lc hs hf).trans (h.lc hs hf)
  vma := fun hm hf => (h'.vma hm hf).trans (h.vma hm hf)
  md := fun hf => (h'.md hf).trans (h.md hf)
  translator := fun hm => by simp [h'.translator hm, h.translator hm]
  intr := fun hf => (h'.intr hf).trans (h.intr hf)
  dpMode := fun hf => (h'.dpMode hf).trans (h.dpMode hf)
  rgMode := fun hf => (h'.rgMode hf).trans (h.rgMode hf)
  statCounter := fun hf => (h'.statCounter hf).trans (h.statCounter hf)
  auxStatCounter := fun hf => (h'.auxStatCounter hf).trans (h.auxStatCounter hf)
  spyModes := by simp [h'.spyModes, h.spyModes]
  overlay := fun hl hh => (h'.overlay hl hh).trans (h.overlay hl hh)
  busClient := by simp [h'.busClient, h.busClient]
  outside := by simp [h'.outside, h.outside]

/-! ## The acts -/

theorem startAccess_registerFrame (hi : i.mayStart = true) {v : Word} {kind : AccessKind} {force : Bool}
    {pend : BusPending} (h : (startAccess v kind force pend s).Leaves t) : RegisterFrame i s t := by
  obtain ⟨hframe, -, -, -, hmd⟩ := startAccess_frame v kind force pend s t h
  rw [hframe]
  constructor <;> simp [hi, hmd]

theorem mOperand_registerFrame
    (h : (∃ v, mOperand i.common.mSrc s = .go (v, t)) ∨ ∃ k, mOperand i.common.mSrc s = .die k t) :
    RegisterFrame i s t := by
  obtain ⟨hframe, hdata, -⟩ := mOperand_frame i.common.mSrc s t h
  have hpointer : i.common.mSrc ≠ .cPdlPointerPop → t.data.pdlPointer = s.data.pdlPointer := fun hs => by rw [hdata hs]
  rw [hframe]
  constructor
  case pdlPointer => exact fun hs _ _ => hpointer hs
  all_goals simp

/-- Each functional destination changes the register it names, and no other. -/
theorem funcDest_registerFrame {f : FuncDest} (hi : i.func = some f) {o : Word} (h : (funcDest f o s).Leaves t) :
    RegisterFrame i s t := by
  cases f
  case vmaStartRead | vmaStartWrite | vmaStartReadForce | vmaStartWriteForce =>
    exact startAccess_registerFrame (mayStart_of_start hi rfl) h
  all_goals
    rcases h with h | ⟨k, h⟩ <;> cases h
    constructor <;> simp [hi]

theorem writeMReg_registerFrame (m : BitVec 6) (o : Word) : RegisterFrame i s (writeMReg m o s) :=
  .of_eq (by simp) (by simp) (by simp) (by simp) (by simp) (by simp) (by simp) (by simp) (by simp)

theorem transfer_registerFrame {tr : Transfer} {target : MicroAddr} {lpc : Bool}
    (h : (transfer tr target lpc s).Leaves t) : RegisterFrame i s t := by
  rw [transfer_frame tr target lpc s t h]
  exact .of_eq rfl rfl rfl rfl rfl rfl rfl rfl ⟨rfl, rfl, rfl⟩

theorem updateQ_registerFrame {f : AluFields} (hi : i.aluFields = some f) (r : Word) :
    RegisterFrame i s { s with data := { s.data with q := updateQ f.qctl s.data.q r } } := by
  constructor
  case q =>
    intro hkeep
    simp [hkeep f hi, updateQ]
  all_goals simp

theorem latchConstant_registerFrame (hi : i.isDispatch = true) (k : BitVec 10) :
    RegisterFrame i s (latchConstant k s) := by
  constructor <;> simp [hi]

theorem countLc_registerFrame (hi : i.common.streams = true) (lc : Word) :
    RegisterFrame i s { s with stream := { s.stream with lc := lc } } := by
  constructor <;> simp [hi]

theorem InstrAct.registerFrame (h : InstrAct i s t) : RegisterFrame i s t := by
  cases h with
  | access hi _ _ _ _ h => exact startAccess_registerFrame hi h
  | countLc hi lc => exact countLc_registerFrame hi lc
  | source h => exact mOperand_registerFrame h
  | latchConstant hi k => exact latchConstant_registerFrame hi k
  | funcDest hi _ h => exact funcDest_registerFrame hi h
  | storeM _ o => exact writeMReg_registerFrame _ o
  | updateQ hi r => exact updateQ_registerFrame hi r
  | transfer _ _ _ _ h => exact transfer_registerFrame h
  | armCountdown | storeA | endOfCycle | die => exact .of_eq rfl rfl rfl rfl rfl rfl rfl rfl ⟨rfl, rfl, rfl⟩

theorem InstrActs.registerFrame (h : InstrActs i s t) : RegisterFrame i s t := by
  induction h with
  | refl => exact .refl
  | tail _ hact ih => exact ih.trans hact.registerFrame

/-- Settles O42: an instruction is a chain of its acts, and each leaves the registers it does not name. -/
theorem instructionsLeaveOtherRegistersUnchanged : Obligations.InstructionsLeaveOtherRegistersUnchanged := by
  intro i s t hexec
  obtain ⟨u, hu, hacts⟩ := exec_instrActs i s
  obtain rfl : u = t := Host.Outcome.next.inj (hu.symm.trans hexec)
  have h := InstrActs.registerFrame hacts
  obtain ⟨hconfig, hproc⟩ := h.spyModes
  obtain ⟨herror, hid⟩ := h.busClient
  exact ⟨h.q, h.mult, h.pdlPointer, h.pdlIndex, h.dispatchConstant, h.macroIR, h.lc, h.vma, h.md, h.translator,
    h.intr, h.dpMode, h.rgMode, h.statCounter, h.auxStatCounter, hconfig, hproc, h.overlay, herror, hid, h.outside⟩

end Sys2Proof.Machine
end

section
/-! # Fields of a word, and the four formats

For O1 to O5. A field is placed and read back at its own position (30_encoding R163), and it shows in no field of
other bits; a field read and placed again is the word under the field's mask. The `OP` code says which fields the
decoder reads (R142). -/

namespace Sys2Proof

/-! ## A placed field -/

@[simp] theorem extractLsb'_place_self {n : Nat} (v : BitVec n) {lo : Nat} (h : lo + n ≤ 56) :
    (place v lo).extractLsb' lo n = v := by
  apply BitVec.eq_of_getLsbD_eq
  intro i hi
  rw [BitVec.getLsbD_extractLsb', getLsbD_place]
  simp [hi, show lo + i < 56 by omega]

@[simp] theorem extractLsb'_place_of_disjoint {n : Nat} (v : BitVec n) {lo lo' m : Nat}
    (h : lo' + m ≤ lo ∨ lo + n ≤ lo') : (place v lo).extractLsb' lo' m = 0#m := by
  apply BitVec.eq_of_getLsbD_eq
  intro i hi
  rw [BitVec.getLsbD_extractLsb', getLsbD_place, BitVec.getLsbD_zero]
  rcases h with h | h
  · simp [show ¬ lo ≤ lo' + i by omega]
  · simp [BitVec.getLsbD_of_ge v (lo' + i - lo) (by omega)]

@[simp] theorem getElem_place_of_disjoint {n : Nat} (v : BitVec n) {lo k : Nat} (hk : k < 56)
    (h : k < lo ∨ lo + n ≤ k) : (place v lo)[k] = false := by
  rw [← BitVec.getLsbD_eq_getElem, getLsbD_place]
  rcases h with h | h
  · simp [show ¬ lo ≤ k by omega]
  · simp [BitVec.getLsbD_of_ge v (k - lo) (by omega)]

@[simp] theorem getElem_place_ofBool_self (b : Bool) {k : Nat} (h : k < 56) : (place (BitVec.ofBool b) k)[k] = b := by
  rw [← BitVec.getLsbD_eq_getElem, getLsbD_place]
  simp [h]

/-- A field of a word, placed where it was read, is the word under the field's mask. -/
theorem place_extractLsb' (w : Slot) (lo n : Nat) :
    place (w.extractLsb' lo n) lo = w &&& place (BitVec.allOnes n) lo := by
  apply BitVec.eq_of_getLsbD_eq
  intro i hi
  rw [BitVec.getLsbD_and, getLsbD_place, getLsbD_place, BitVec.getLsbD_extractLsb', BitVec.getLsbD_allOnes]
  by_cases h : lo ≤ i
  · simp [hi, h, Bool.and_comm]
  · simp [h]

theorem placeBit_getLsbD (w : Slot) (k : Nat) : placeBit (w.getLsbD k) k = w &&& placeBit true k := by
  apply BitVec.eq_of_getLsbD_eq
  intro i hi
  rw [BitVec.getLsbD_and, getLsbD_placeBit, getLsbD_placeBit]
  by_cases h : k = i
  · subst h; simp [hi]
  · simp [h]

/-! ## Words that agree under a mask -/

theorem extractLsb'_eq_of_and_eq {v w mask : Slot} (h : v &&& mask = w &&& mask) {lo n : Nat}
    (hmask : mask.extractLsb' lo n = BitVec.allOnes n) : v.extractLsb' lo n = w.extractLsb' lo n := by
  have hfield := congrArg (BitVec.extractLsb' lo n) h
  simpa only [BitVec.extractLsb'_and, hmask, BitVec.and_allOnes] using hfield

theorem getLsbD_eq_of_and_eq {v w mask : Slot} (h : v &&& mask = w &&& mask) {k : Nat}
    (hmask : mask.getLsbD k = true) : v.getLsbD k = w.getLsbD k := by
  have hbit := congrArg (BitVec.getLsbD · k) h
  simpa only [BitVec.getLsbD_and, hmask, Bool.and_true] using hbit

/-! ## The format of a word -/

/-- The `OP` codes (R142). -/
theorem op_cases (op : BitVec 2) : op = 0 ∨ op = 1 ∨ op = 2 ∨ op = 3 := by
  revert op; decide

section
variable {w : Slot}

theorem decode_of_op_alu (h : w.extractLsb' 48 2 = 0) :
    decode w = decodeAlu (w.extractLsb' 7 5) (decodeCommon w) (decodeAluFields w) := by
  rw [decode, h]; rfl

theorem decode_of_op_jump (h : w.extractLsb' 48 2 = 1) :
    decode w = decodeJump (w.extractLsb' 10 3) (decodeCommon w) (decodeJumpFields w) := by
  rw [decode, h]; rfl

theorem decode_of_op_dispatch (h : w.extractLsb' 48 2 = 2) :
    decode w = .ok (if w.getLsbD 13 then .dispatchMir (decodeCommon w) (decodeDispatchFields w)
      else .dispatch (decodeCommon w) (decodeDispatchFields w)) := by
  rw [decode, h]; rfl

theorem decode_of_op_byte (h : w.extractLsb' 48 2 = 3) :
    decode w = .ok (decodeByte (w.getLsbD 12) (w.getLsbD 11) (decodeCommon w) (decodeByteFields w)) := by
  rw [decode, h]; rfl

end

end Sys2Proof
end

section
/-! # Decoding an encoded word

For O1 and O4. Each format reads back the operand fields its encoder places; a row's code then selects the
constructor. -/

namespace Sys2Proof

/-- An instruction is well-formed by its M source, its destination and its test. -/
theorem wellFormed_iff (i : Instr) :
    i.wellFormed = true ↔ i.common.mSrc.wellFormed = true ∧ (∀ d, i.dest = some d → d.wellFormed = true)
      ∧ ∀ f, i.jumpFields = some f → f.test.wellFormed = true := by
  rw [Instr.wellFormed, Bool.and_eq_true, Bool.and_eq_true, and_assoc]
  cases i.dest <;> cases i.jumpFields <;> simp

/-- Fields below the common ones are not read as common ones. -/
theorem decodeCommon_or_place {n : Nat} (w : Slot) (v : BitVec n) {lo : Nat} (h : lo + n ≤ 29) :
    decodeCommon (w ||| place v lo) = decodeCommon w := by
  have hfield : ∀ {a m}, 29 ≤ a → (w ||| place v lo).extractLsb' a m = w.extractLsb' a m := fun ha => by
    rw [BitVec.extractLsb'_or, extractLsb'_place_of_disjoint v (.inr (by omega)), BitVec.or_zero]
  have hbit : ∀ {k} (hk : k < 56), 29 ≤ k → (w ||| place v lo)[k] = w[k] := fun hk h29 => by
    rw [BitVec.getElem_or, getElem_place_of_disjoint v hk (.inr (by omega)), Bool.or_false]
  simp [decodeCommon, hfield, hbit]

theorem decodeCommon_encodeCommon (op : BitVec 2) {c : Common} (h : c.mSrc.wellFormed = true) :
    decodeCommon (encodeCommon op c) = c := by
  simp [decodeCommon, encodeCommon, placeBit, BitVec.extractLsb'_or, MSource.ofCode_code _ h]

/-- No common field shows below bit 29. -/
@[simp] theorem extractLsb'_encodeCommon_low (op : BitVec 2) (c : Common) {lo n : Nat} (h : lo + n ≤ 29) :
    (encodeCommon op c).extractLsb' lo n = 0#n := by
  have hplace : ∀ {m a} (v : BitVec m), 29 ≤ a → (place v a).extractLsb' lo n = 0#n := fun v ha =>
    extractLsb'_place_of_disjoint v (.inl (by omega))
  simp [encodeCommon, placeBit, BitVec.extractLsb'_or, hplace]

@[simp] theorem getElem_encodeCommon_low (op : BitVec 2) (c : Common) {k : Nat} (hk : k < 56) (h : k < 29) :
    (encodeCommon op c)[k] = false := by
  have hplace : ∀ {m a} (v : BitVec m), 29 ≤ a → (place v a)[k] = false := fun v ha =>
    getElem_place_of_disjoint v hk (.inl (by omega))
  simp [encodeCommon, placeBit, hplace]

theorem decode_encodeAlu (code : BitVec 5) {c : Common} {f : AluFields} (hc : c.mSrc.wellFormed = true)
    (hd : f.dest.wellFormed = true) : decode (encodeAlu code c f) = decodeAlu code c f := by
  have hcommon : decodeCommon (encodeAlu code c f) = c := by
    simp [encodeAlu, placeBit, decodeCommon_or_place, decodeCommon_encodeCommon _ hc]
  have hcode : (encodeAlu code c f).extractLsb' 7 5 = code := by
    simp [encodeAlu, placeBit, BitVec.extractLsb'_or]
  have hfields : decodeAluFields (encodeAlu code c f) = f := by
    simp [decodeAluFields, encodeAlu, placeBit, BitVec.extractLsb'_or, Dest.ofCode_code _ hd, OutSel.ofCode_code,
      QCtl.ofCode_code]
  rw [decode_of_op_alu (Laws.EncodeOp.alu code c f), hcommon, hcode, hfields]

theorem decode_encodeByte (rsrc rmask : Bool) {c : Common} {f : ByteFields} (hc : c.mSrc.wellFormed = true)
    (hd : f.dest.wellFormed = true) : decode (encodeByte rsrc rmask c f) = .ok (decodeByte rsrc rmask c f) := by
  have hcommon : decodeCommon (encodeByte rsrc rmask c f) = c := by
    simp [encodeByte, placeBit, decodeCommon_or_place, decodeCommon_encodeCommon _ hc]
  have hrsrc : (encodeByte rsrc rmask c f).getLsbD 12 = rsrc := by simp [encodeByte, placeBit]
  have hrmask : (encodeByte rsrc rmask c f).getLsbD 11 = rmask := by simp [encodeByte, placeBit]
  have hfields : decodeByteFields (encodeByte rsrc rmask c f) = f := by
    simp [decodeByteFields, encodeByte, placeBit, BitVec.extractLsb'_or, Dest.ofCode_code _ hd]
  rw [decode_of_op_byte (Laws.EncodeOp.byte rsrc rmask c f), hcommon, hrsrc, hrmask, hfields]

theorem decode_encodeJump (rpn : BitVec 3) {c : Common} {f : JumpFields} (hc : c.mSrc.wellFormed = true)
    (ht : f.test.wellFormed = true) : decode (encodeJump rpn c f) = decodeJump rpn c f := by
  have hcommon : decodeCommon (encodeJump rpn c f) = c := by
    simp [encodeJump, placeBit, decodeCommon_or_place, decodeCommon_encodeCommon _ hc]
  have hrpn : (encodeJump rpn c f).extractLsb' 10 3 = rpn := by
    simp [encodeJump, placeBit, BitVec.extractLsb'_or]
  have hfields : decodeJumpFields (encodeJump rpn c f) = f := by
    simp [decodeJumpFields, encodeJump, placeBit, BitVec.extractLsb'_or, JumpTest.ofCode_code _ ht]
  rw [decode_of_op_jump (Laws.EncodeOp.transfer rpn c f), hcommon, hrpn, hfields]

theorem decode_encodeDispatch (mir : Bool) {c : Common} (f : DispatchFields) (hc : c.mSrc.wellFormed = true) :
    decode (encodeDispatch mir c f) = .ok (if mir then .dispatchMir c f else .dispatch c f) := by
  have hcommon : decodeCommon (encodeDispatch mir c f) = c := by
    simp [encodeDispatch, placeBit, decodeCommon_or_place, decodeCommon_encodeCommon _ hc]
  have hmir : (encodeDispatch mir c f).getLsbD 13 = mir := by simp [encodeDispatch, placeBit]
  have hfields : decodeDispatchFields (encodeDispatch mir c f) = f := by
    simp [decodeDispatchFields, encodeDispatch, placeBit, BitVec.extractLsb'_or]
  rw [decode_of_op_dispatch (Laws.EncodeOp.dispatches mir c f), hcommon, hmir, hfields]

/-- Settles O1, format by format: each decodes its own fields, and the code of a row selects its constructor. -/
theorem decodeOfEncodeIsIdentity : Obligations.DecodeOfEncodeIsIdentity := by
  intro i hwf
  obtain ⟨hsource, hdest, htest⟩ := (wellFormed_iff i).mp hwf
  cases i
  case byteLow | byteSeldep | byteLdb | byteDpb => exact decode_encodeByte _ _ hsource (hdest _ rfl)
  case jumpXctNext | jump | callXctNext | call | retXctNext | ret => exact decode_encodeJump _ hsource (htest _ rfl)
  case dispatch | dispatchMir => exact decode_encodeDispatch _ _ hsource
  all_goals exact decode_encodeAlu _ hsource (hdest _ rfl)

/-- Settles O4: the decoder evaluates on each word. -/
theorem specWordsDecode : Obligations.SpecWordsDecode :=
  ⟨rfl, rfl, rfl, rfl⟩

end Sys2Proof
end

section
/-! # Encoding a decoded word

For O2, O5 and O6. `DecodesAs` says once what an accepted word decodes to, format by format: the word its
instruction encodes to, and the parts the statements speak of. -/

namespace Sys2Proof

/-! ## What a decoded instruction holds -/

/-- An instruction's word and its parts, as the row of its format gives them. -/
structure Parts (i : Instr) (word : Slot) (c : Common) (d : Option Dest) (a : Option AluFields)
    (j : Option JumpFields) : Prop where
  encode_eq : encode i = word
  common_eq : i.common = c
  dest_eq : i.dest = d
  aluFields_eq : i.aluFields = a
  jumpFields_eq : i.jumpFields = j

theorem decodeAlu_ok {code : BitVec 5} {c : Common} {f : AluFields} {i : Instr} (h : decodeAlu code c f = .ok i) :
    Parts i (encodeAlu code c f) c (some f.dest) (some f) none := by
  unfold decodeAlu at h
  split at h
  case h_17 => cases h
  all_goals
    next hcode =>
    obtain ⟨-, rfl⟩ := BitVec.toNat_eq_nat.mp hcode
    cases h
    exact ⟨rfl, rfl, rfl, rfl, rfl⟩

theorem decodeJump_ok {rpn : BitVec 3} {c : Common} {f : JumpFields} {i : Instr} (h : decodeJump rpn c f = .ok i) :
    Parts i (encodeJump rpn c f) c none none (some f) := by
  unfold decodeJump at h
  split at h
  case h_7 => cases h
  all_goals
    next hrpn =>
    obtain ⟨-, rfl⟩ := BitVec.toNat_eq_nat.mp hrpn
    cases h
    exact ⟨rfl, rfl, rfl, rfl, rfl⟩

theorem decodeByte_parts (rsrc rmask : Bool) (c : Common) (f : ByteFields) :
    Parts (decodeByte rsrc rmask c f) (encodeByte rsrc rmask c f) c (some f.dest) none none := by
  cases rsrc <;> cases rmask <;> exact ⟨rfl, rfl, rfl, rfl, rfl⟩

theorem dispatch_parts (mir : Bool) (c : Common) (f : DispatchFields) :
    Parts (if mir then .dispatchMir c f else .dispatch c f) (encodeDispatch mir c f) c none none none := by
  cases mir <;> exact ⟨rfl, rfl, rfl, rfl, rfl⟩

/-- What the decoder reads from a word, by its format. -/
inductive DecodesAs (w : Slot) (i : Instr) : Prop where
  | alu (hop : w.extractLsb' 48 2 = 0)
      (h : Parts i (encodeAlu (w.extractLsb' 7 5) (decodeCommon w) (decodeAluFields w)) (decodeCommon w)
        (some (decodeAluFields w).dest) (some (decodeAluFields w)) none)
  | jump (hop : w.extractLsb' 48 2 = 1)
      (h : Parts i (encodeJump (w.extractLsb' 10 3) (decodeCommon w) (decodeJumpFields w)) (decodeCommon w)
        none none (some (decodeJumpFields w)))
  | dispatch (hop : w.extractLsb' 48 2 = 2)
      (h : Parts i (encodeDispatch (w.getLsbD 13) (decodeCommon w) (decodeDispatchFields w)) (decodeCommon w)
        none none none)
  | byte (hop : w.extractLsb' 48 2 = 3)
      (h : Parts i (encodeByte (w.getLsbD 12) (w.getLsbD 11) (decodeCommon w) (decodeByteFields w)) (decodeCommon w)
        (some (decodeByteFields w).dest) none none)

theorem decodesAs {w : Slot} {i : Instr} (h : decode w = .ok i) : DecodesAs w i := by
  rcases op_cases (w.extractLsb' 48 2) with hop | hop | hop | hop
  · exact .alu hop (decodeAlu_ok (decode_of_op_alu hop ▸ h))
  · exact .jump hop (decodeJump_ok (decode_of_op_jump hop ▸ h))
  · obtain rfl := Except.ok.inj ((decode_of_op_dispatch hop).symm.trans h)
    exact .dispatch hop (dispatch_parts _ _ _)
  · obtain rfl := Except.ok.inj ((decode_of_op_byte hop).symm.trans h)
    exact .byte hop (decodeByte_parts _ _ _ _)

/-! ## Encoding a decoded word -/

section
variable {w : Slot}

theorem encodeCommon_decodeCommon {op : BitVec 2} (hop : w.extractLsb' 48 2 = op) :
    encodeCommon op (decodeCommon w) = w &&& place (BitVec.allOnes 27) 29 := by
  simp only [encodeCommon, ← hop, decodeCommon, MSource.code_ofCode, place_extractLsb', placeBit_getLsbD,
    ← BitVec.and_or_distrib_left]
  rfl

theorem encodeAlu_decode (hop : w.extractLsb' 48 2 = 0) :
    encodeAlu (w.extractLsb' 7 5) (decodeCommon w) (decodeAluFields w) = w &&& usedBits w := by
  simp only [encodeAlu, encodeCommon_decodeCommon hop, decodeAluFields, Dest.code_ofCode, OutSel.code_ofCode,
    QCtl.code_ofCode, place_extractLsb', placeBit_getLsbD, ← BitVec.and_or_distrib_left]
  rw [usedBits, hop]
  rfl

theorem encodeByte_decode (hop : w.extractLsb' 48 2 = 3) :
    encodeByte (w.getLsbD 12) (w.getLsbD 11) (decodeCommon w) (decodeByteFields w) = w &&& usedBits w := by
  simp only [encodeByte, encodeCommon_decodeCommon hop, decodeByteFields, Dest.code_ofCode, place_extractLsb',
    placeBit_getLsbD, ← BitVec.and_or_distrib_left]
  rw [usedBits, hop]
  rfl

theorem encodeJump_decode (hop : w.extractLsb' 48 2 = 1) :
    encodeJump (w.extractLsb' 10 3) (decodeCommon w) (decodeJumpFields w) = w &&& usedBits w := by
  simp only [encodeJump, encodeCommon_decodeCommon hop, decodeJumpFields, JumpTest.testBit_ofCode,
    JumpTest.code_ofCode, place_extractLsb', placeBit_getLsbD, ← BitVec.and_or_distrib_left]
  rw [usedBits, hop]
  rfl

theorem encodeDispatch_decode (hop : w.extractLsb' 48 2 = 2) :
    encodeDispatch (w.getLsbD 13) (decodeCommon w) (decodeDispatchFields w) = w &&& usedBits w := by
  simp only [encodeDispatch, encodeCommon_decodeCommon hop, decodeDispatchFields, place_extractLsb',
    placeBit_getLsbD, ← BitVec.and_or_distrib_left]
  rw [usedBits, hop]
  rfl

end

/-- Settles O2, format by format: the fields read are the word under their masks, which together leave out the spare
bits. -/
theorem encodeOfDecodeKeepsUsedBits : Obligations.EncodeOfDecodeKeepsUsedBits := by
  intro w i hdecode
  have hsource : (decodeCommon w).mSrc.wellFormed = true := MSource.wellFormed_ofCode _
  rw [wellFormed_iff]
  cases decodesAs hdecode with
  | alu hop h =>
    refine ⟨?_, h.encode_eq.trans (encodeAlu_decode hop)⟩
    rw [h.common_eq, h.dest_eq, h.jumpFields_eq]
    exact ⟨hsource, by rintro _ ⟨⟩; exact Dest.wellFormed_ofCode _, nofun⟩
  | jump hop h =>
    refine ⟨?_, h.encode_eq.trans (encodeJump_decode hop)⟩
    rw [h.common_eq, h.dest_eq, h.jumpFields_eq]
    exact ⟨hsource, nofun, by rintro _ ⟨⟩; exact JumpTest.wellFormed_ofCode _ _⟩
  | dispatch hop h =>
    refine ⟨?_, h.encode_eq.trans (encodeDispatch_decode hop)⟩
    rw [h.common_eq, h.dest_eq, h.jumpFields_eq]
    exact ⟨hsource, nofun, nofun⟩
  | byte hop h =>
    refine ⟨?_, h.encode_eq.trans (encodeByte_decode hop)⟩
    rw [h.common_eq, h.dest_eq, h.jumpFields_eq]
    exact ⟨hsource, by rintro _ ⟨⟩; exact Dest.wellFormed_ofCode _, nofun⟩

end Sys2Proof
end

section
/-! # Undefined codes

For O5 and O6. Which codes the decoder rejects, and which it reads as documented operands, by the numbers of a
word's fields. -/

namespace Sys2Proof

/-! ## Rejected words -/

/-- The sixteen codes of R151. -/
def aluCodes : List Nat :=
  [0x00, 0x01, 0x02, 0x03, 0x05, 0x06, 0x07, 0x0F, 0x10, 0x11, 0x12, 0x15, 0x16, 0x19, 0x1C, 0x1F]

theorem decodeAlu_eq_error_iff (code : BitVec 5) (c : Common) (f : AluFields) :
    (∃ r, decodeAlu code c f = .error r) ↔ code.toNat ∉ aluCodes := by
  unfold decodeAlu
  split
  case h_17 => simp_all [aluCodes]
  all_goals next hcode => simp [aluCodes, hcode]

theorem decodeJump_eq_error_iff (rpn : BitVec 3) (c : Common) (f : JumpFields) :
    (∃ r, decodeJump rpn c f = .error r) ↔ 6 ≤ rpn.toNat := by
  unfold decodeJump
  split
  case h_7 =>
    simp only [imp_false] at *
    simp only [Except.error.injEq, exists_eq', true_iff]
    omega
  all_goals next hrpn => simp [hrpn]

theorem toNat_extractLsb'_eq_field (w : Slot) (lo n : Nat) : (w.extractLsb' lo n).toNat = Machine.field w lo n :=
  Machine.toNat_extractLsb'_eq_div_mod w lo n

/-- Settles O5, format by format. -/
theorem decodeRejectsExactlyUndefinedCodes : Obligations.DecodeRejectsExactlyUndefinedCodes := by
  intro w
  have hfield : Machine.field w 48 2 = (w.extractLsb' 48 2).toNat := (toNat_extractLsb'_eq_field w 48 2).symm
  rcases op_cases (w.extractLsb' 48 2) with hop | hop | hop | hop <;> rw [hfield, hop]
  · rw [decode_of_op_alu hop, decodeAlu_eq_error_iff, toNat_extractLsb'_eq_field]
    simp [aluCodes]
  · rw [decode_of_op_jump hop, decodeJump_eq_error_iff, toNat_extractLsb'_eq_field]
    simp
  · simp [decode_of_op_dispatch hop]
  · simp [decode_of_op_byte hop]

/-! ## Documented operands -/

theorem MSource.legal_ofCode_iff (code : BitVec 7) : (MSource.ofCode code).legal = true ↔ code.toNat < 0x56 := by
  revert code; decide

theorem OutSel.legal_ofCode_iff (code : BitVec 3) : (OutSel.ofCode code).legal = true ↔ code.toNat ≠ 7 := by
  revert code; decide

theorem FuncDest.legal_ofCode_iff (code : BitVec 6) : (FuncDest.ofCode code).legal = true ↔ code.toNat < 0x1B := by
  revert code; decide

theorem Condition.legal_ofCode_iff (code : BitVec 5) : (Condition.ofCode code).legal = true ↔ code.toNat < 8 := by
  revert code; decide

section
variable (w : Slot)

theorem mSource_legal_iff : (decodeCommon w).mSrc.legal = true ↔ Machine.field w 29 7 < 0x56 := by
  rw [decodeCommon, MSource.legal_ofCode_iff, toNat_extractLsb'_eq_field]

theorem outSel_legal_iff : (decodeAluFields w).out.legal = true ↔ Machine.field w 13 3 ≠ 7 := by
  rw [decodeAluFields, OutSel.legal_ofCode_iff, toNat_extractLsb'_eq_field]

theorem getLsbD_iff_field (k : Nat) : w.getLsbD k = true ↔ Machine.field w k 1 = 1 :=
  Machine.getLsbD_iff_div_mod w k

theorem dest_legal_iff :
    (Dest.ofCode (w.extractLsb' 16 13)).legal = true ↔ Machine.field w 28 1 = 1 ∨ Machine.field w 22 6 < 0x1B := by
  have hbit : (w.extractLsb' 16 13).getLsbD 12 = w.getLsbD 28 := by simp
  have hcode : (w.extractLsb' 16 13).extractLsb' 6 6 = w.extractLsb' 22 6 := by
    apply BitVec.eq_of_toNat_eq
    simp only [Machine.toNat_extractLsb'_eq_div_mod]
    omega
  rw [Dest.ofCode, hbit, hcode, ← getLsbD_iff_field, ← toNat_extractLsb'_eq_field, ← FuncDest.legal_ofCode_iff]
  cases w.getLsbD 28 <;> simp [Dest.legal]

theorem jumpTest_legal_iff :
    (decodeJumpFields w).test.legal = true ↔ Machine.field w 8 1 = 0 ∨ Machine.field w 0 5 < 8 := by
  have hbit : Machine.field w 8 1 = 0 ↔ ¬ w.getLsbD 8 = true := by
    rw [getLsbD_iff_field, Machine.field]
    omega
  rw [decodeJumpFields, hbit, ← toNat_extractLsb'_eq_field, ← Condition.legal_ofCode_iff, JumpTest.ofCode]
  cases w.getLsbD 8 <;> simp [JumpTest.legal]

end

end Sys2Proof
end

section
/-! # Bits and operands that are ignored

For O3. The decoder reads the used bits of a word alone; and what a meaning does not read may differ: bits 31:20 of
a dispatch word, the target of a RETURN, the carry bit of an operation without a carry-in. -/

namespace Sys2Proof

/-- The `OP` bits are used in every format. -/
theorem extractLsb'_usedBits_op (w : Slot) : (usedBits w).extractLsb' 48 2 = BitVec.allOnes 2 := by
  rcases op_cases (w.extractLsb' 48 2) with hop | hop | hop | hop <;> rw [usedBits, hop] <;> rfl

/-- Words that agree on their used bits have the same format and the same fields. -/
theorem decode_eq_of_and_usedBits_eq {v w : Slot} (h : v &&& usedBits w = w &&& usedBits w) : decode v = decode w := by
  have hop' : v.extractLsb' 48 2 = w.extractLsb' 48 2 := extractLsb'_eq_of_and_eq h (extractLsb'_usedBits_op w)
  rcases op_cases (w.extractLsb' 48 2) with hop | hop | hop | hop
  case' inl =>
    have hmask : v &&& ~~~0xF#56 = w &&& ~~~0xF#56 := by rwa [usedBits, hop] at h
    rw [decode_of_op_alu hop, decode_of_op_alu (hop'.trans hop)]
  case' inr.inl =>
    have hmask : v &&& ~~~0x60#56 = w &&& ~~~0x60#56 := by rwa [usedBits, hop] at h
    rw [decode_of_op_jump hop, decode_of_op_jump (hop'.trans hop)]
  case' inr.inr.inl =>
    have hmask : v &&& ~~~0x7C060#56 = w &&& ~~~0x7C060#56 := by rwa [usedBits, hop] at h
    rw [decode_of_op_dispatch hop, decode_of_op_dispatch (hop'.trans hop)]
  case' inr.inr.inr =>
    have hmask : v &&& ~~~0xE000#56 = w &&& ~~~0xE000#56 := by rwa [usedBits, hop] at h
    rw [decode_of_op_byte hop, decode_of_op_byte (hop'.trans hop)]
  all_goals
    simp (disch := decide) only [decodeCommon, decodeAluFields, decodeByteFields, decodeJumpFields,
      decodeDispatchFields, extractLsb'_eq_of_and_eq hmask, getLsbD_eq_of_and_eq hmask]

end Sys2Proof

namespace Sys2Proof.Machine

theorem applyDispatchWord_congr {w v : Word} (h : v.extractLsb' 0 20 = w.extractLsb' 0 20) (m : Word) (lpc : Bool)
    (s : State) : applyDispatchWord v m lpc s = applyDispatchWord w m lpc s := by
  have hfield : ∀ {lo n}, lo + n ≤ 20 → v.extractLsb' lo n = w.extractLsb' lo n := fun hle => by
    rw [← BitVec.extractLsb'_extractLsb'_of_le hle, h, BitVec.extractLsb'_extractLsb'_of_le hle]
  have hread : v.getLsbD 19 = w.getLsbD 19 := by simpa using congrArg (BitVec.getLsbD · 19) h
  simp only [applyDispatchWord, hread, hfield (lo := 16) (n := 3) (by decide), hfield (lo := 0) (n := 16) (by decide)]

/-- A JUMP whose transfer takes no target ignores `ADDR` and `LPC`. -/
theorem runJump_congr_target {tr : Transfer} (h : ∀ a a' l l' s, transfer tr a l s = transfer tr a' l' s) (c : Common)
    (f : JumpFields) (a : MicroAddr) (l : Bool) (s : State) :
    runJump tr c { f with addr := a, lpc := l } s = runJump tr c f s := by
  simp only [runJump, h a f.addr l f.lpc]

/-- An ALU operation that takes no carry-in ignores `CARRY`. -/
theorem runAlu_congr_carry {op : AluOp} (h : ∀ a m cin cin' q0, op a m cin q0 = op a m cin' q0) (c : Common)
    (f : AluFields) (b : Bool) (s : State) : runAlu op c { f with carry := b } s = runAlu op c f s := by
  simp only [runAlu, h _ _ b f.carry]

/-- Settles O3: the decoder reads used bits alone, and the meanings ignore the rest one by one. -/
theorem spareBitsAndUnusedFieldsAreIgnored : Obligations.SpareBitsAndUnusedFieldsAreIgnored := by
  refine ⟨fun w v => decode_eq_of_and_usedBits_eq, fun w v m lpc s h => applyDispatchWord_congr h m lpc s,
    fun c f a l s => ⟨?ret, ?retXctNext⟩, fun c f b s k hk => ?carry⟩
  case ret => exact runJump_congr_target (fun _ _ _ _ _ => rfl) c f a l s
  case retXctNext => exact runJump_congr_target (fun _ _ _ _ _ => rfl) c f a l s
  case carry =>
    simp only [List.mem_cons, List.not_mem_nil, or_false] at hk
    rcases hk with rfl | rfl | rfl | rfl | rfl | rfl | rfl | rfl | rfl | rfl | rfl | rfl <;>
      exact runAlu_congr_carry (fun _ _ _ _ _ => rfl) c f b s

end Sys2Proof.Machine
end
section
/-! # Illegal encodings die

For O6 and O7. An instruction that is not `legal` dies whatever the state, as a rejected word does; and each illegal
word of 30_encoding R157 is rejected or decodes to such an instruction. -/

namespace Sys2Proof.Machine

/-- A part of a cycle dies. -/
def Flow.Dies {α : Type} (x : Flow α) : Prop := ∃ k t, x = .die k t

/-- An outcome is a next state with both bits of `Die` set. -/
def EndsDead (x : Host.Outcome State Fault Refusal) : Prop := ∃ t, x = .next t ∧ Dead t

theorem Flow.dies_bind {α β : Type} (x : Flow α) {f : α → Flow β} (h : ∀ a, (f a).Dies) : (x.bind f).Dies := by
  cases x with
  | go a => exact h a
  | die k t => exact ⟨k, t, rfl⟩

theorem Flow.Dies.bind {α β : Type} {x : Flow α} (h : x.Dies) (f : α → Flow β) : (x.bind f).Dies := by
  obtain ⟨k, t, rfl⟩ := h
  exact ⟨k, t, rfl⟩

theorem Flow.Dies.endsDead {x : Flow State} (h : x.Dies) : EndsDead (finish x) := by
  obtain ⟨k, t, rfl⟩ := h
  exact ⟨raiseDie t, rfl, rfl, rfl⟩

/-! ## Illegal instructions -/

theorem exec_endsDead_of_not_fetchReady {i : Instr} {s : State} (h : ¬ FetchReady i.common s) :
    EndsDead (exec i s) := by
  obtain ⟨k, t, hdie⟩ := fetchOperands_die h
  exact ⟨raiseDie t, exec_of_fetch_die hdie, rfl, rfl⟩

theorem writeback_dies {d : Dest} (h : ¬ d.legal = true) (o : Word) (s : State) : (writeback d o s).Dies := by
  cases d with
  | a addr => exact absurd rfl h
  | func f m =>
    obtain ⟨k, t, hdie, -⟩ := funcDest_die f o s m fun ⟨hlegal, _⟩ => h hlegal
    exact ⟨k, t, by rw [writeback_func, hdie, Flow.bind_die]⟩

theorem outputSelector_eq_none {out : OutSel} (h : ¬ out.legal = true) (r32 : Word) (carry : Bool) (a q : Word) :
    outputSelector out r32 carry a q = none := by
  cases out
  case undefined => rfl
  all_goals exact absurd rfl h

theorem testHolds_eq_none {t : JumpTest} (h : ¬ t.legal = true) (a m : Word) (s : State) :
    testHolds t a m s = none := by
  cases t with
  | bit rot => exact absurd rfl h
  | cond c =>
    cases c
    case undefined => rfl
    all_goals exact absurd rfl h

theorem runAlu_endsDead {f : AluFields} (h : ¬ f.dest.legal = true ∨ ¬ f.out.legal = true) (op : AluOp) (c : Common)
    (s : State) : EndsDead (runAlu op c f s) := by
  refine (Flow.dies_bind _ fun ⟨a, m, s7⟩ => ?_).endsDead
  dsimp only
  split
  next => exact ⟨_, _, rfl⟩
  next o hout =>
    rcases h with hdest | hsel
    · exact (writeback_dies hdest o s7).bind _
    · rw [outputSelector_eq_none hsel] at hout
      cases hout

theorem runByte_endsDead {f : ByteFields} (h : ¬ f.dest.legal = true) (rsrc rmask : Bool) (c : Common) (s : State) :
    EndsDead (runByte rsrc rmask c f s) :=
  (Flow.dies_bind _ fun _ => (writeback_dies h _ _).bind _).endsDead

theorem runJump_endsDead {f : JumpFields} (h : ¬ f.test.legal = true) (tr : Transfer) (c : Common) (s : State) :
    EndsDead (runJump tr c f s) := by
  refine (Flow.dies_bind _ fun ⟨a, m, s7⟩ => ?_).endsDead
  dsimp only
  rw [testHolds_eq_none h]
  exact ⟨_, _, rfl⟩

theorem exec_endsDead_of_dest {i : Instr} {d : Dest} (hd : i.dest = some d) (h : ¬ d.legal = true) (s : State) :
    EndsDead (exec i s) := by
  cases i
  case byteLow | byteSeldep | byteLdb | byteDpb =>
    obtain rfl := Option.some.inj hd
    exact runByte_endsDead h _ _ _ s
  case jumpXctNext | jump | callXctNext | call | retXctNext | ret | dispatch | dispatchMir => cases hd
  all_goals
    obtain rfl := Option.some.inj hd
    exact runAlu_endsDead (.inl h) _ _ s

theorem exec_endsDead_of_out {i : Instr} {f : AluFields} (hf : i.aluFields = some f) (h : ¬ f.out.legal = true)
    (s : State) : EndsDead (exec i s) := by
  cases i <;> cases hf <;> exact runAlu_endsDead (.inr h) _ _ s

theorem exec_endsDead_of_test {i : Instr} {f : JumpFields} (hf : i.jumpFields = some f) (h : ¬ f.test.legal = true)
    (s : State) : EndsDead (exec i s) := by
  cases i <;> cases hf <;> exact runJump_endsDead h _ _ s

/-- An instruction with an undocumented operand dies, whatever the state. -/
theorem exec_endsDead_of_not_legal {i : Instr} (h : ¬ i.legal = true) (s : State) : EndsDead (exec i s) := by
  refine Classical.byContradiction fun halive => h ((legal_iff i).mpr
    ⟨Decidable.byContradiction fun hillegal => halive ?source,
      fun d hd => Decidable.byContradiction fun hillegal => halive ?dest,
      fun f hf => Decidable.byContradiction fun hillegal => halive ?out,
      fun f hf => Decidable.byContradiction fun hillegal => halive ?test⟩)
  case source => exact exec_endsDead_of_not_fetchReady fun ⟨_, hlegal, _⟩ => hillegal hlegal
  case dest => exact exec_endsDead_of_dest hd hillegal s
  case out => exact exec_endsDead_of_out hf hillegal s
  case test => exact exec_endsDead_of_test hf hillegal s

/-! ## Illegal words -/

theorem execRejected_endsDead (r : Reject) (c : Common) (s : State) : EndsDead (execRejected r c s) :=
  (Flow.dies_bind _ fun _ => ⟨_, _, rfl⟩).endsDead

/-- What the bits of an accepted word say when every operand is documented. -/
theorem fields_of_legal {w : Slot} {i : Instr} (h : decode w = .ok i) (hlegal : i.legal = true) :
    field w 29 7 < 0x56 ∧ (field w 48 2 = 0 → field w 13 3 ≠ 7)
      ∧ (field w 48 2 = 0 ∨ field w 48 2 = 3 → field w 28 1 = 1 ∨ field w 22 6 < 0x1B)
      ∧ (field w 48 2 = 1 → field w 8 1 = 0 ∨ field w 0 5 < 8) := by
  obtain ⟨hsource, hdest, hout, htest⟩ := (legal_iff i).mp hlegal
  have hop : field w 48 2 = (w.extractLsb' 48 2).toNat := (toNat_extractLsb'_eq_field w 48 2).symm
  have hm : i.common = decodeCommon w → field w 29 7 < 0x56 := fun hc => by
    rw [hc] at hsource
    exact (mSource_legal_iff w).mp hsource
  cases decodesAs h with
  | alu hcode hp =>
    rw [hop, hcode]
    exact ⟨hm hp.common_eq, fun _ => (outSel_legal_iff w).mp (hout _ hp.aluFields_eq),
      fun _ => (dest_legal_iff w).mp (hdest _ hp.dest_eq), nofun⟩
  | jump hcode hp =>
    rw [hop, hcode]
    exact ⟨hm hp.common_eq, nofun, nofun, fun _ => (jumpTest_legal_iff w).mp (htest _ hp.jumpFields_eq)⟩
  | dispatch hcode hp =>
    rw [hop, hcode]
    exact ⟨hm hp.common_eq, nofun, nofun, nofun⟩
  | byte hcode hp =>
    rw [hop, hcode]
    exact ⟨hm hp.common_eq, nofun, fun _ => (dest_legal_iff w).mp (hdest _ hp.dest_eq), nofun⟩

/-- The decoder rejects an illegal word, or reads an instruction with an undocumented operand. -/
theorem not_legal_of_illegalWord {w : Slot} (hw : IllegalWord w) {i : Instr} (h : decode w = .ok i) :
    ¬ i.legal = true := by
  intro hlegal
  obtain ⟨hsource, hout, hdest, htest⟩ := fields_of_legal h hlegal
  have haccepted := mt (decodeRejectsExactlyUndefinedCodes w).mpr (by simp [h])
  rcases hw with hw | hw | ⟨hop, hw⟩ | ⟨hop, hbit, hw⟩ | ⟨hop, hbit, hw⟩ | hw
  · omega
  · exact haccepted (.inl hw)
  · exact hout hop hw
  · have := hdest hop; omega
  · have := htest hop; omega
  · exact haccepted (.inr hw)

theorem execWord_endsDead {s : State} (h : IllegalWord s.pcs.ir) : EndsDead (execWord s) := by
  unfold execWord
  split
  next i hi => exact exec_endsDead_of_not_legal (not_legal_of_illegalWord h hi) s
  next r _ => exact execRejected_endsDead r _ s

/-! ## Illegal dispatch words -/

/-- A DISPATCH that reads a word with an illegal code dies, in its operand fetch if not of the code. -/
theorem exec_dispatches_endsDead {c : Common} {f : DispatchFields} {s : State} {i : Instr} {w : Word}
    (hi : (i, w) ∈ [(Instr.dispatch c f, s.files.amem.read (tableIndex c f (mValue c s) (afterFetch c s))),
      (.dispatchMir c f, macroWord (afterFetch c s))]) (hc : i.common = c) (hcode : 6 ≤ w.toNat / 2 ^ 16 % 8) :
    EndsDead (exec i s) := by
  by_cases hready : FetchReady c s
  · obtain ⟨d, x, hexec⟩ := exec_dispatches hi hready
    have hnone : transferOf (w.extractLsb' 16 3) = none :=
      Option.not_isSome_iff_eq_none.mp fun hsome => absurd ((transferOf_isSome_iff w).mp hsome) (by omega)
    rw [hexec, applyDispatchWord_of_illegal hnone]
    exact Flow.Dies.endsDead ⟨_, _, rfl⟩
  · exact exec_endsDead_of_not_fetchReady (hc ▸ hready)

/-- Settles O6: an illegal word is rejected or is an instruction with an undocumented operand; a DISPATCH refuses an
illegal dispatch word. -/
theorem illegalEncodingsDie : Obligations.IllegalEncodingsDie :=
  ⟨fun _ => execWord_endsDead, fun _ _ _ => exec_dispatches_endsDead (.head _) rfl,
    fun _ _ _ => exec_dispatches_endsDead (.tail _ (.head _)) rfl⟩

end Sys2Proof.Machine
end

section
/-! # A step that executes

For O7. Nothing before step 5 stops the cycle, so the step is the execution of the fetched word; a rejected word dies
of its operand fetch or right after it. -/

namespace Sys2Proof.Machine

theorem consumeStall_of_noStall {t : State} (h : NoStall t) : consumeStall t = none := by
  obtain ⟨hslow, hlong, hnop, hcs, hmacro⟩ := h
  simp [consumeStall, hslow, hlong, hnop, hcs, hmacro]

theorem step_eq_execWord {s t : State} (hrun : Running s) (hpjan : tickPjan (atStep3 s) = .go t) (hstall : NoStall t) :
    step s = execWord (fetchNext t) := by
  obtain ⟨hspy, hhalted, hheld⟩ := hrun
  calc step s = runCycle (atStep3 s) := by
        simp only [step, clockPulse, ← atStep3.eq_def, hspy, hhalted, hheld, Bool.false_eq_true, if_false]
    _ = execWord (fetchNext t) := by simp only [runCycle, hpjan, consumeStall_of_noStall hstall]

/-- Operand fetch writes no register file and not `Q`, whether it goes through or dies. -/
theorem fetchOperands_files_q {c : Common} {s u : State}
    (h : (∃ a m, fetchOperands c s = .go (a, m, u)) ∨ ∃ k, fetchOperands c s = .die k u) :
    u.files = s.files ∧ u.data.q = s.data.q := by
  have hstream : (afterStream c s).files = s.files ∧ (afterStream c s).data.q = s.data.q :=
    ⟨afterStream_files c s, by rw [(afterStream_frame c s).1]⟩
  by_cases hready : StreamReady c s
  · have hbind : fetchOperands c s = (mOperand c.mSrc (afterStream c s)).bind _ :=
      congrArg (Flow.bind · _) (streamStep_go c s hready)
    have hsource : (∃ m, mOperand c.mSrc (afterStream c s) = .go (m, u)) ∨
        ∃ k, mOperand c.mSrc (afterStream c s) = .die k u := by
      rw [hbind] at h
      rcases h with ⟨a, m, h⟩ | ⟨k, h⟩
      · obtain ⟨p, hp, hgo⟩ := Flow.bind_eq_go.mp h
        cases hgo
        exact .inl ⟨p.1, hp⟩
      · rcases Flow.bind_eq_die.mp h with hdie | ⟨p, -, hgo⟩
        · exact .inr ⟨k, hdie⟩
        · cases hgo
    rw [(mOperand_frame _ _ u hsource).1]
    exact hstream
  · rw [fetchOperands_die_of_not_streamReady hready] at h
    rcases h with ⟨_, _, h⟩ | ⟨_, h⟩ <;> cases h
    exact hstream

/-- A rejected word dies with the register files and `Q` as they were. -/
theorem execRejected_files_q (r : Reject) (c : Common) (s : State) :
    ∃ d, execRejected r c s = .next d ∧ Dead d ∧ d.files = s.files ∧ d.data.q = s.data.q := by
  rw [execRejected]
  cases hfetch : fetchOperands c s with
  | go p =>
    obtain ⟨a, m, u⟩ := p
    exact ⟨raiseDie u, rfl, ⟨rfl, rfl⟩, fetchOperands_files_q (u := u) (.inl ⟨a, m, hfetch⟩)⟩
  | die k t => exact ⟨raiseDie t, rfl, ⟨rfl, rfl⟩, fetchOperands_files_q (u := t) (.inr ⟨k, hfetch⟩)⟩

theorem execRejected_of_fetchReady (r : Reject) {c : Common} {s : State} (h : FetchReady c s) :
    execRejected r c s = .next (raiseDie (afterFetch c s)) := by
  rw [execRejected, fetchOperands_go h, Flow.bind_go, finish_die]

/-- Settles O7: the step is the execution of the fetched word, decoded or rejected. -/
theorem stepRunsDecodedInstruction : Obligations.StepRunsDecodedInstruction := by
  intro s t hrun hpjan hstall u c
  have hstep : step s = execWord u := step_eq_execWord hrun hpjan hstall
  refine ⟨hstep, fun i hi => ?decoded, fun r hr => ?rejected⟩
  case decoded => rw [hstep, execWord, hi]
  case rejected =>
    have hreject : step s = execRejected r c u := by rw [hstep, execWord, hr]
    rw [hreject]
    exact ⟨execRejected_files_q r c u, execRejected_of_fetchReady r⟩

end Sys2Proof.Machine
end

section
/-! # What an instruction leaves of the control state

For O13 and O43. Every instruction ends in one of two ways, `endOfCycle` or `raiseDie` (`exec_ends`), and what it
does before that has `ControlFrame`: in particular it writes neither the run state nor the two stalls that step 11
arms. -/

namespace Sys2Proof.Machine

/-- What an instruction has left of the control state when it comes to step 11 or dies: each part is the same in
`s` and `t` unless the instruction is one that moves it. -/
structure ControlFrame (i : Instr) (s t : State) : Prop where
  fetched : t.pcs.currentPC = s.pcs.currentPC ∧ t.pcs.ir = s.pcs.ir ∧ t.pcs.irForced = s.pcs.irForced
  noTransfer : i.transfers = false → t.pcs.afterNextPC = s.pcs.afterNextPC ∧ t.stalls.nopNext = s.stalls.nopNext
  noReturn : i.transfers = false → i.common.mSrc ≠ .microStackPop → t.pcs.nextPC = s.pcs.nextPC
    ∧ t.ustack = s.ustack
  countdown : i.transfers = false → i.common.mSrc ≠ .microStackPop → t.pcs.popjCountdown = s.pcs.popjCountdown
  stalls : t.stalls.forceHold = s.stalls.forceHold ∧ t.stalls.slowDest = s.stalls.slowDest
    ∧ t.stalls.longInst = s.stalls.longInst
  csWrite : i.func ≠ some .cramLow → i.func ≠ some .cramHigh → i.func ≠ some .cramMap →
    t.stalls.csWrite = s.stalls.csWrite
  macroDispatch : (∀ c f, i ≠ .dispatchMir c f) → t.stalls.macroDispatch = s.stalls.macroDispatch
  run : t.run = s.run

section
variable {i : Instr} {s t u : State}

/-- What leaves the whole control state has the frame, whatever the instruction. -/
theorem ControlFrame.of_eq (hpcs : t.pcs = s.pcs) (hustack : t.ustack = s.ustack) (hstalls : t.stalls = s.stalls)
    (hrun : t.run = s.run) : ControlFrame i s t := by
  constructor <;> simp [hpcs, hustack, hstalls, hrun]

theorem ControlFrame.refl : ControlFrame i s s := .of_eq rfl rfl rfl rfl

theorem ControlFrame.trans (h : ControlFrame i s t) (h' : ControlFrame i t u) : ControlFrame i s u where
  fetched := by simp [h'.fetched, h.fetched]
  noTransfer := fun hi => by simp [h'.noTransfer hi, h.noTransfer hi]
  noReturn := fun hi hsrc => by simp [h'.noReturn hi hsrc, h.noReturn hi hsrc]
  countdown := fun hi hsrc => (h'.countdown hi hsrc).trans (h.countdown hi hsrc)
  stalls := by simp [h'.stalls, h.stalls]
  csWrite := fun hl hh hm => (h'.csWrite hl hh hm).trans (h.csWrite hl hh hm)
  macroDispatch := fun hi => (h'.macroDispatch hi).trans (h.macroDispatch hi)
  run := h'.run.trans h.run

/-! ## The acts before step 11 -/

theorem startAccess_controlFrame {v : Word} {kind : AccessKind} {force : Bool} {pend : BusPending}
    (h : (startAccess v kind force pend s).Leaves t) : ControlFrame i s t := by
  rw [(startAccess_frame v kind force pend s t h).1]
  exact .of_eq rfl rfl rfl rfl

theorem mOperand_controlFrame
    (h : (∃ v, mOperand i.common.mSrc s = .go (v, t)) ∨ ∃ k, mOperand i.common.mSrc s = .die k t) :
    ControlFrame i s t := by
  obtain ⟨hframe, -, hpop⟩ := mOperand_frame i.common.mSrc s t h
  constructor
  case noReturn | countdown =>
    intro _ hsrc
    simp [hpop hsrc]
  all_goals rw [hframe]
  all_goals simp

/-- Of the functional destinations only the control-store ones touch the control state. -/
theorem funcDest_controlFrame {f : FuncDest} (hi : i.func = some f) {o : Word} (h : (funcDest f o s).Leaves t) :
    ControlFrame i s t := by
  cases f
  case vmaStartRead | vmaStartWrite | vmaStartReadForce | vmaStartWriteForce => exact startAccess_controlFrame h
  all_goals rcases h with h | ⟨k, h⟩ <;> cases h
  case cramLow | cramHigh | cramMap => constructor <;> simp [hi]
  all_goals exact .of_eq (by simp) (by simp) (by simp) (by simp)

theorem writeMReg_controlFrame (m : BitVec 6) (o : Word) : ControlFrame i s (writeMReg m o s) :=
  .of_eq (by simp) (by simp) (by simp) (by simp)

theorem transfer_controlFrame (hi : i.transfers = true) {tr : Transfer} {target : MicroAddr} {lpc : Bool}
    (h : (transfer tr target lpc s).Leaves t) : ControlFrame i s t := by
  rw [transfer_frame tr target lpc s t h]
  constructor <;> simp [hi]

theorem armCountdown_controlFrame (c : Common) (f : DispatchFields) (n : Nat) :
    ControlFrame (.dispatchMir c f) s { s with stalls := { s.stalls with macroDispatch := n } } := by
  constructor <;> simp

end

/-! ## The parts of an instruction -/

/-- A part of a cycle meets `Q` where it goes on and `D` where it dies. -/
def Flow.Ensures {α : Type} (Q : α → Prop) (D : State → Prop) : Flow α → Prop
  | .go a => Q a
  | .die _ t => D t

theorem Flow.Ensures.bind {α β : Type} {Q : α → Prop} {Q' : β → Prop} {D : State → Prop} {x : Flow α}
    {f : α → Flow β} (hx : x.Ensures Q D) (hf : ∀ a, Q a → (f a).Ensures Q' D) : (x.bind f).Ensures Q' D := by
  cases x with
  | go a => exact hf a hx
  | die k t => exact hx

/-- A part that is one act. -/
theorem Flow.ensures_of_leaves {P : State → Prop} {x : Flow State} (h : ∀ t, x.Leaves t → P t) : x.Ensures P P := by
  cases x with
  | go t => exact h t (.inl rfl)
  | die k t => exact h t (.inr ⟨k, rfl⟩)

/-- The two ways an instruction ends: step 11, or `Die`. -/
def EndsFramed (i : Instr) (s : State) (x : Host.Outcome State Fault Refusal) : Prop :=
  ∃ t u, x = .next t ∧ ControlFrame i s u ∧ (t = endOfCycle i.common u ∨ t = raiseDie u)

/-- The state an instruction that does not die ends in. -/
def EndedCycle (i : Instr) (s t : State) : Prop := ∃ u, ControlFrame i s u ∧ t = endOfCycle i.common u

section
variable {i : Instr} {s : State}

theorem endOfCycle_ensures {t : State} (h : ControlFrame i s t) :
    (Flow.go (endOfCycle i.common t)).Ensures (EndedCycle i s) (ControlFrame i s) := ⟨t, h, rfl⟩

theorem Flow.Ensures.finish {x : Flow State} (hx : x.Ensures (EndedCycle i s) (ControlFrame i s)) :
    EndsFramed i s (Machine.finish x) := by
  cases x with
  | go t =>
    obtain ⟨u, hu, ht⟩ := hx
    exact ⟨t, u, rfl, hu, .inl ht⟩
  | die k u => exact ⟨raiseDie u, u, rfl, hx, .inr rfl⟩

theorem streamStep_ensures (advance : Bool) : (streamStep advance s).Ensures (ControlFrame i s) (ControlFrame i s) := by
  cases advance with
  | false => exact .refl
  | true =>
    rw [streamStep_true]
    refine (Flow.ensures_of_leaves fun t => startAccess_controlFrame).bind fun t ht => ?_
    exact ht.trans (.of_eq rfl rfl rfl rfl)

theorem mOperand_ensures {t : State} (h : ControlFrame i s t) :
    (mOperand i.common.mSrc t).Ensures (fun p => ControlFrame i s p.2) (ControlFrame i s) := by
  cases hx : mOperand i.common.mSrc t with
  | go p => exact h.trans (mOperand_controlFrame (.inl ⟨p.1, hx⟩))
  | die k u => exact h.trans (mOperand_controlFrame (.inr ⟨k, hx⟩))

theorem fetchOperands_ensures :
    (fetchOperands i.common s).Ensures (fun p => ControlFrame i s p.2.2) (ControlFrame i s) :=
  (streamStep_ensures _).bind fun _ h6 => (mOperand_ensures h6).bind fun _ h7 => h7

theorem writeback_ensures {d : Dest} (hd : i.dest = some d) (o : Word) {t : State} (h : ControlFrame i s t) :
    (writeback d o t).Ensures (ControlFrame i s) (ControlFrame i s) := by
  cases d with
  | a addr => exact h.trans (.of_eq rfl rfl rfl rfl)
  | func f m =>
    rw [writeback_func]
    have hf : i.func = some f := func_eq_some_iff.mpr ⟨m, hd⟩
    refine (Flow.ensures_of_leaves fun u hu => h.trans (funcDest_controlFrame hf hu)).bind fun u hu => ?_
    exact hu.trans (writeMReg_controlFrame m o)

theorem transfer_ensures (hi : i.transfers = true) (tr : Transfer) (target : MicroAddr) (lpc : Bool) {t : State}
    (h : ControlFrame i s t) : (transfer tr target lpc t).Ensures (ControlFrame i s) (ControlFrame i s) :=
  Flow.ensures_of_leaves fun _ hu => h.trans (transfer_controlFrame hi hu)

theorem applyDispatchWord_ensures (hi : i.transfers = true) (w m : Word) (lpc : Bool) {t : State}
    (h : ControlFrame i s t) : (applyDispatchWord w m lpc t).Ensures (ControlFrame i s) (ControlFrame i s) := by
  unfold applyDispatchWord
  split
  · exact h
  next tr _ =>
    refine Flow.Ensures.bind (Q := ControlFrame i s) ?_ fun u hu => transfer_ensures hi tr _ lpc hu
    split
    · exact Flow.ensures_of_leaves fun u hu => h.trans (startAccess_controlFrame hu)
    · exact h

/-! ## The instructions, format by format -/

theorem runAlu_ends {f : AluFields} (hd : i.dest = some f.dest) (op : AluOp) :
    EndsFramed i s (runAlu op i.common f s) := by
  refine (fetchOperands_ensures.bind ?_).finish
  rintro ⟨a, m, s7⟩ h7
  dsimp only
  split
  · exact h7
  · exact (writeback_ensures hd _ h7).bind fun s9 h9 => endOfCycle_ensures (h9.trans (.of_eq rfl rfl rfl rfl))

theorem runByte_ends {f : ByteFields} (hd : i.dest = some f.dest) (rsrc rmask : Bool) :
    EndsFramed i s (runByte rsrc rmask i.common f s) := by
  refine (fetchOperands_ensures.bind ?_).finish
  rintro ⟨a, m, s7⟩ h7
  exact (writeback_ensures hd _ h7).bind fun _ => endOfCycle_ensures

theorem runJump_ends (hi : i.transfers = true) (f : JumpFields) (tr : Transfer) :
    EndsFramed i s (runJump tr i.common f s) := by
  refine (fetchOperands_ensures.bind ?_).finish
  rintro ⟨a, m, s7⟩ h7
  dsimp only
  split
  · exact h7
  · refine Flow.Ensures.bind (Q := ControlFrame i s) ?_ fun _ => endOfCycle_ensures
    split
    · exact transfer_ensures hi _ _ _ h7
    · exact h7

theorem runDispatch_ends (hi : i.transfers = true) {pick : Word → State → Word × State}
    (hpick : ∀ m t, ControlFrame i t (pick m t).2) (f : DispatchFields) :
    EndsFramed i s (runDispatch pick i.common f s) := by
  refine (fetchOperands_ensures.bind ?_).finish
  rintro ⟨a, m, s7⟩ h7
  have hlatch : ControlFrame i s (latchConstant f.dconst s7) := h7.trans (.of_eq rfl rfl rfl rfl)
  exact (applyDispatchWord_ensures hi _ m f.lpc (hlatch.trans (hpick m _))).bind fun _ => endOfCycle_ensures

end

theorem execDispatch_ends (c : Common) (f : DispatchFields) (s : State) :
    EndsFramed (.dispatch c f) s (execDispatch c f s) := by
  unfold execDispatch
  exact runDispatch_ends (i := .dispatch c f) rfl (fun _ _ => .refl) f

theorem execDispatchMir_ends (c : Common) (f : DispatchFields) (s : State) :
    EndsFramed (.dispatchMir c f) s (execDispatchMir c f s) := by
  unfold execDispatchMir
  exact runDispatch_ends (i := .dispatchMir c f) rfl (fun _ t => armCountdown_controlFrame c f _) f

theorem exec_endsFramed (i : Instr) (s : State) : EndsFramed i s (exec i s) := by
  cases i
  case byteLow | byteSeldep | byteLdb | byteDpb => exact runByte_ends rfl _ _
  case jumpXctNext | jump | callXctNext | call | retXctNext | ret => exact runJump_ends rfl _ _
  case dispatch => exact execDispatch_ends _ _ s
  case dispatchMir => exact execDispatchMir_ends _ _ s
  all_goals exact runAlu_ends rfl _

/-- Whatever the instruction, it comes with its frame to step 11 or to `Die`. -/
theorem exec_ends {i : Instr} {s t : State} (h : exec i s = .next t) :
    ∃ u, ControlFrame i s u ∧ (t = endOfCycle i.common u ∨ t = raiseDie u) := by
  obtain ⟨t', u, ht', hu, hend⟩ := exec_endsFramed i s
  obtain rfl : t' = t := Host.Outcome.next.inj (ht'.symm.trans h)
  exact ⟨u, hu, hend⟩

/-- Settles O13: without a die-request the instruction ended by step 11, in a state that still has the stalls and
the run state it began with. -/
theorem commonBitsTakeEffectAtEndOfCycle : Obligations.CommonBitsTakeEffectAtEndOfCycle := by
  intro i s t hexec halive
  obtain ⟨u, hframe, rfl | rfl⟩ := exec_ends hexec
  · obtain ⟨-, hslow, hlong⟩ := hframe.stalls
    refine ⟨?_, ?_, ?_, fun hpjan => ?_⟩
    · rw [endOfCycle_stalls, hslow]
    · rw [endOfCycle_stalls, hlong]
    · rw [endOfCycle_run, hframe.run]
    · rw [endOfCycle_pcs, if_pos hpjan]
  · simp at halive

/-- Settles O43: step 11 arms two stalls, PJAN and the halt by the common bits, `Die` sets its two bits, and all
before them has the frame. -/
theorem instructionsLeaveOtherControlStateUnchanged : Obligations.InstructionsLeaveOtherControlStateUnchanged := by
  intro i s t hexec
  obtain ⟨u, hframe, hend⟩ := exec_ends hexec
  obtain ⟨hcurrent, hir, hforced⟩ := hframe.fetched
  obtain ⟨hhold, hslow, hlong⟩ := hframe.stalls
  rcases hend with rfl | rfl
  case inl =>
    refine ⟨hcurrent, hir, hforced, hframe.noTransfer, hframe.noReturn, fun hi hsrc hpjan => ?_, hhold,
      fun hc => ?_, fun hc => ?_, hframe.csWrite, hframe.macroDispatch, .inl ?_⟩
    · simp [hpjan, hframe.countdown hi hsrc]
    · simp [hc, hslow]
    · simp [hc, hlong]
    · rw [endOfCycle_run, hframe.run]
  case inr =>
    refine ⟨hcurrent, hir, hforced, hframe.noTransfer, hframe.noReturn, fun hi hsrc _ => hframe.countdown hi hsrc,
      hhold, fun _ => hslow, fun _ => hlong, hframe.csWrite, hframe.macroDispatch, .inr ?_⟩
    rw [raiseDie_run, hframe.run]

end Sys2Proof.Machine
end

section
/-! # A step that executes nothing

For O10 and O11. A halted or held engine stops at step 3 or 4 in the state the bus service left; a running one with
a stall pending consumes the first one. -/

namespace Sys2Proof.Machine

/-- A step is the bus service and then SPY, the halt, the forced hold or steps 4 to 11 (40_cycle R180). -/
theorem step_eq (s : State) :
    step s = if spySelected (atStep3 s) then .next (spyRespond (atStep3 s))
      else if (atStep3 s).run.halted then .next (atStep3 s)
      else if (atStep3 s).stalls.forceHold then .next (atStep3 s)
      else runCycle (atStep3 s) := rfl

theorem atStep3_frame (s : State) :
    (atStep3 s).pcs = (platformTick s).pcs ∧ (atStep3 s).stalls = (platformTick s).stalls
      ∧ (atStep3 s).modes = (platformTick s).modes ∧ (atStep3 s).ustack = (platformTick s).ustack
      ∧ (atStep3 s).spyUnit = (platformTick s).spyUnit := by
  simp [atStep3, serveBus]

theorem step_of_halted_or_held {s : State} (hspy : spySelected (atStep3 s) = false)
    (h : (atStep3 s).run.halted = true ∨ (atStep3 s).stalls.forceHold = true) : step s = .next (atStep3 s) := by
  rw [step_eq, hspy]
  rcases h with hhalted | hheld
  · simp [hhalted]
  · simp [hheld]

/-- Settles O10: the step is the bus service, which leaves the five groups. -/
theorem haltedOrHeldEngineOnlyServesTheBus : Obligations.HaltedOrHeldEngineOnlyServesTheBus :=
  fun s hspy h => ⟨atStep3 s, step_of_halted_or_held hspy h, rfl, atStep3_frame s⟩

theorem step_of_consumeStall {s t u : State} (hrun : Running s) (hpjan : tickPjan (atStep3 s) = .go t)
    (hstall : consumeStall t = some u) : step s = .next u := by
  obtain ⟨hspy, hhalted, hheld⟩ := hrun
  simp [step_eq, hspy, hhalted, hheld, runCycle, hpjan, hstall]

/-- Settles O11: after PJAN's tick the step is the consumption of the first pending stall. -/
theorem oneStallPerCycleByPriority : Obligations.OneStallPerCycleByPriority := by
  intro s t hrun hpjan
  refine ⟨fun hslow => ?_, fun hslow hlong => ?_, fun hslow hlong hnop => ?_, fun hslow hlong hnop hcs => ?_,
    fun n hslow hlong hnop hcs hmacro => ?_⟩ <;>
  refine step_of_consumeStall hrun hpjan ?_
  · simp [consumeStall, hslow]
  · simp [consumeStall, hslow, hlong]
  · simp [consumeStall, hslow, hlong, hnop]
  · simp [consumeStall, hslow, hlong, hnop, hcs]
  · simp [consumeStall, hslow, hlong, hnop, hcs, hmacro]

end Sys2Proof.Machine
end

section
/-! # Step 5, by numbers

For O8. `fetchNext` is five operations, each of which writes its own group (40_cycle R192 to R197): the program
counters and the instruction register, the history, the overlay, the statistics counters. -/

namespace Sys2Proof.Machine

/-- The word a micro-address maps to (10_state R29). -/
theorem readCram_eq_read (s : State) (u : MicroAddr) :
    readCram s u =
      s.store.cram.read ((s.store.cramMap.read (u.toNat / 16)).toNat * 16 + u.toNat % 16) := by
  have hlt := u.isLt
  have hpage : (u.extractLsb' 4 12).toNat = u.toNat / 16 := by
    rw [toNat_extractLsb'_eq_div_mod]
    omega
  have hline : (u.extractLsb' 0 4).toNat = u.toNat % 16 := by
    rw [toNat_extractLsb'_eq_div_mod]
    omega
  have hslot : (s.store.cramMap.read (u.extractLsb' 4 12).toNat ++ u.extractLsb' 0 4).toNat =
      (s.store.cramMap.read (u.extractLsb' 4 12).toNat).toNat * 16 + (u.extractLsb' 0 4).toNat :=
    toNat_append_eq_mul_add _ _
  rw [readCram_eq, hslot, hpage, hline]

/-- The instruction register before the overlay: the forced word or the stored one (R193, R194). -/
def fetchedWord (s : State) : Slot := if s.pcs.irForced then s.pcs.ir else readCram s s.pcs.nextPC

/-- The program counters and the instruction register after step 5 (R192 to R195). -/
theorem fetchNext_pcs (s : State) :
    (fetchNext s).pcs =
      { currentPC := s.pcs.nextPC
        nextPC := s.pcs.afterNextPC.getD (s.pcs.nextPC + 1)
        afterNextPC := none
        popjCountdown := s.pcs.popjCountdown
        ir := if s.overlay.pending then fetchedWord s ||| (s.overlay.high ++ s.overlay.low) else fetchedWord s
        irForced := false } := by
  simp [fetchNext, fetchedWord, readCram_eq]

theorem fetchNext_overlay (s : State) :
    (fetchNext s).overlay = if s.overlay.pending then { low := 0, high := 0, pending := false } else s.overlay := by
  simp [fetchNext]

/-- The history after step 5 (R196). -/
theorem fetchNext_spyUnit (s : State) :
    (fetchNext s).spyUnit = { s.spyUnit with
      history := s.spyUnit.history.write s.spyUnit.historyPtr.toNat s.pcs.nextPC
      historyPtr := s.spyUnit.historyPtr + 1 } := by
  simp [fetchNext]

/-- The statistics counters after step 5, which read the merged instruction register (R197). -/
theorem fetchNext_modes (s : State) :
    (fetchNext s).modes = { s.modes with
      statCounter :=
        countIf (triggerCounts (statTrigger s) ((fetchNext s).pcs.ir.getLsbD 53)) s.modes.statCounter
      auxStatCounter :=
        countIf (triggerCounts (auxStatTrigger s) ((fetchNext s).pcs.ir.getLsbD 53)) s.modes.auxStatCounter } := by
  simp [fetchNext, statTrigger, auxStatTrigger]

/-! ## The overlay -/

/-- The overlay's 24 high bits stand above its 32 low ones (R195). -/
theorem getLsbD_or_append_low (w : Slot) (high : BitVec 24) (low : Word) {k : Nat} (hk : k < 32) :
    (w ||| (high ++ low)).getLsbD k = (w.getLsbD k || low.getLsbD k) := by
  rw [BitVec.getLsbD_or, BitVec.getLsbD_append, if_pos hk]

theorem getLsbD_or_append_high (w : Slot) (high : BitVec 24) (low : Word) (k : Nat) :
    (w ||| (high ++ low)).getLsbD (32 + k) = (w.getLsbD (32 + k) || high.getLsbD k) := by
  rw [BitVec.getLsbD_or, BitVec.getLsbD_append, if_neg (by omega), Nat.add_sub_cancel_left]

/-! ## The statistics counters -/

/-- What a counter with this trigger counts an instruction with this `MF` bit as (R197). -/
def triggerIncrement (trigger : Nat) (mf : Bool) : Nat :=
  match trigger with
  | 0 => 1
  | 1 => if mf then 1 else 0
  | _ => 0

theorem countIf_triggerCounts_toNat (trigger : BitVec 2) (mf : Bool) (v : Word) :
    (countIf (triggerCounts trigger mf) v).toNat = (v.toNat + triggerIncrement trigger.toNat mf) % 2 ^ 32 := by
  have hcounts : triggerIncrement trigger.toNat mf = if triggerCounts trigger mf then 1 else 0 := by
    revert trigger
    cases mf <;> decide
  have hlt := v.isLt
  rw [hcounts, countIf]
  split
  · rw [BitVec.toNat_add]
    rfl
  · rw [Nat.add_zero, Nat.mod_eq_of_lt hlt]

theorem statTrigger_toNat (s : State) : (statTrigger s).toNat = s.modes.rgMode.toNat / 4 % 4 :=
  toNat_extractLsb'_eq_div_mod s.modes.rgMode 2 2

theorem auxStatTrigger_toNat (s : State) : (auxStatTrigger s).toNat = s.modes.rgMode.toNat / 16 % 4 :=
  toNat_extractLsb'_eq_div_mod s.modes.rgMode 4 2

theorem fetchNext_statCounter_toNat (s : State) :
    (fetchNext s).modes.statCounter.toNat =
      (s.modes.statCounter.toNat
        + triggerIncrement (s.modes.rgMode.toNat / 4 % 4) ((fetchNext s).pcs.ir.getLsbD 53)) % 2 ^ 32 := by
  rw [fetchNext_modes, countIf_triggerCounts_toNat, statTrigger_toNat]

theorem fetchNext_auxStatCounter_toNat (s : State) :
    (fetchNext s).modes.auxStatCounter.toNat =
      (s.modes.auxStatCounter.toNat
        + triggerIncrement (s.modes.rgMode.toNat / 16 % 4) ((fetchNext s).pcs.ir.getLsbD 53)) % 2 ^ 32 := by
  rw [fetchNext_modes, countIf_triggerCounts_toNat, auxStatTrigger_toNat]

/-! ## The whole of step 5 -/

/-- Step 5 writes the program counters, the overlay, the history and the two counters. -/
theorem fetchNext_eq (s : State) :
    fetchNext s = { s with
      pcs := (fetchNext s).pcs
      overlay := (fetchNext s).overlay
      spyUnit := { s.spyUnit with
        history := (fetchNext s).spyUnit.history, historyPtr := (fetchNext s).spyUnit.historyPtr }
      modes := { s.modes with
        statCounter := (fetchNext s).modes.statCounter, auxStatCounter := (fetchNext s).modes.auxStatCounter } } := by
  have hframe := fetchNext_frame s
  have hspy := fetchNext_spyUnit s
  have hmodes := fetchNext_modes s
  generalize fetchNext s = t at *
  cases t
  simp_all

/-- Settles O8, group by group. -/
theorem fetchAdvancesAndMerges : Obligations.FetchAdvancesAndMerges := by
  intro s t stored base
  have hbase : base = fetchedWord s := by
    rw [fetchedWord, readCram_eq_read]
  have hpcs : t.pcs = _ := fetchNext_pcs s
  have hoverlay : t.overlay = _ := fetchNext_overlay s
  have hhistory : t.spyUnit = _ := fetchNext_spyUnit s
  refine ⟨?current, ?afterNext, ?next, ?slot, ?forced, ?pjan, ?plain, ?merged, ?history, ?pointer,
    fetchNext_statCounter_toNat s, fetchNext_auxStatCounter_toNat s, fetchNext_eq s⟩
  case current | slot | forced | pjan => rw [hpcs]
  case afterNext =>
    intro x hx
    rw [hpcs, hx, Option.getD_some]
  case next =>
    intro hnone
    rw [hpcs, hnone, Option.getD_none, BitVec.toNat_add]
    rfl
  case plain =>
    intro hpending
    simp [hpcs, hoverlay, hpending, hbase]
  case merged =>
    intro hpending
    rw [hpcs, hoverlay, if_pos hpending, if_pos hpending, hbase]
    exact ⟨fun k hk => getLsbD_or_append_low _ _ _ hk, fun k _ => getLsbD_or_append_high _ _ _ k, rfl⟩
  case history =>
    intro n
    rw [hhistory, Cells.read_write]
    simp only [eq_comm]
  case pointer =>
    rw [hhistory, BitVec.toNat_add]
    rfl

end Sys2Proof.Machine
end

section
/-! # The M sources

For O16 and O17. The value of each source by the register or memory word it names, and what `afterFetch` is for each
kind of source: the two popping ones move a pointer, the others leave the state the instruction-stream step left. -/

namespace Sys2Proof.Machine

/-! ## Values -/

theorem mRegister_toNat (m : BitVec 6) : (m.setWidth 12).toNat = m.toNat :=
  BitVec.toNat_setWidth_of_le (by decide)

/-- A register or memory word narrower than the M bus keeps its number on it (41 R232). -/
theorem toNat_setWidth_word {w : Nat} (h : w ≤ 32) (x : BitVec w) : (x.setWidth 32).toNat = x.toNat :=
  BitVec.toNat_setWidth_of_le h

theorem sourceValue_lv1Map (s : State) :
    (sourceValue .lv1Map s).toNat = (s.vm.lv1.read (s.vm.md.toNat / 2 ^ 13 % 4096)).toNat := by
  rw [sourceValue, toNat_setWidth_word (by decide), lv1Entry_eq]

theorem sourceValue_lv2MapControl (s : State) :
    (sourceValue .lv2MapControl s).toNat = (s.vm.lv2c.read (level2Index s s.vm.md)).toNat := by
  rw [sourceValue, toNat_setWidth_word (by decide), lv2Control_eq]

theorem sourceValue_lv2MapAddress (s : State) :
    (sourceValue .lv2MapAddress s).toNat = (s.vm.lv2a.read (level2Index s s.vm.md)).toNat := by
  rw [sourceValue, toNat_setWidth_word (by decide), lv2Address_eq]

/-- Settles O17: the full-width sources give their word, the narrower ones keep its number, and the map sources read
the entry of MD. -/
theorem mSourceValues : Obligations.MSourceValues := by
  intro s n md
  refine ⟨?mRegister, ?full, ?narrow⟩
  case mRegister => rw [sourceValue, readM, mRegister_toNat]
  case full =>
    simp only [List.forall_mem_cons]
    exact ⟨rfl, rfl, rfl, rfl, rfl, rfl, rfl, rfl, rfl, rfl, rfl, rfl, rfl, nofun⟩
  case narrow =>
    have hzext : ∀ {w : Nat}, w ≤ 32 → ∀ x : BitVec w, (x.setWidth 32).toNat = x.toNat := toNat_setWidth_word
    simp only [List.forall_mem_cons]
    exact ⟨hzext (by decide) _, hzext (by decide) _, hzext (by decide) _, hzext (by decide) _, hzext (by decide) _,
      hzext (by decide) _, sourceValue_lv1Map s, sourceValue_lv2MapControl s, sourceValue_lv2MapAddress s, nofun⟩

/-! ## Effects -/

/-- A source that pops nothing leaves the state of step 6, whether or not it is documented. -/
theorem afterFetch_of_not_pop {c : Common} (s : State) (hstack : c.mSrc ≠ .microStackPop)
    (hpdl : c.mSrc ≠ .cPdlPointerPop) : afterFetch c s = afterStream c s := by
  unfold afterFetch
  cases hsrc : c.mSrc
  case microStackPop => exact absurd hsrc hstack
  case cPdlPointerPop => exact absurd hsrc hpdl
  all_goals rfl

theorem afterFetch_of_cPdlPointerPop {c : Common} (s : State) (h : c.mSrc = .cPdlPointerPop) :
    let u := afterStream c s
    afterFetch c s = { u with data := { u.data with pdlPointer := u.data.pdlPointer - 1 } } := by
  unfold afterFetch
  rw [h]
  rfl

/-- A micro-stack pop with no PJAN armed (41 R243). -/
theorem afterFetch_of_microStackPop {c : Common} {s : State} (h : c.mSrc = .microStackPop)
    (hpjan : s.pcs.popjCountdown = none) : afterFetch c s = dropTop (afterStream c s) := by
  have hpop : microStackPop (afterStream c s) = .go (dropTop (afterStream c s)) := by
    simp only [microStackPop, afterStream_pcs, hpjan]
  rw [afterFetch, h, mOperand, hpop, Flow.bind_go]

/-- A micro-stack pop with PJAN armed: a second pop is the deferred return (44_microstack_pjan R391). -/
theorem afterFetch_of_microStackPop_armed {c : Common} {s : State} (h : c.mSrc = .microStackPop)
    (hpjan : s.pcs.popjCountdown ≠ none) (hslot : s.pcs.afterNextPC = none) :
    let t := dropTop (afterStream c s)
    afterFetch c s = { dropTop t with pcs := { t.pcs with nextPC := peek t, popjCountdown := none } } := by
  obtain ⟨n, hn⟩ := Option.ne_none_iff_exists'.mp hpjan
  have hpop : microStackPop (afterStream c s) = deferredReturn (dropTop (afterStream c s)) := by
    simp only [microStackPop, afterStream_pcs, hn]
  have hempty : (dropTop (afterStream c s)).pcs.afterNextPC = none := by
    simp only [dropTop_frame, afterStream_pcs, hslot]
  rw [afterFetch, h, mOperand, hpop, deferredReturn_eq, hempty]
  rfl

/-- Settles O16: the source's kind says which of the four forms of `afterFetch` it has. -/
theorem onlyPoppingSourcesHaveEffects : Obligations.OnlyPoppingSourcesHaveEffects := by
  intro c s ⟨_, hready⟩ u
  refine ⟨afterFetch_of_not_pop s, fun hpdl => ?pdl, fun hstack hpjan => ?stack, fun hstack hpjan => ?armed⟩
  case pdl =>
    have hptr : u.data.pdlPointer - 1 = BitVec.ofNat 12 (u.data.pdlPointer.toNat + 4095) := by bv_omega
    rw [afterFetch_of_cPdlPointerPop s hpdl, hptr]
  case stack =>
    have hptr : u.ustack.ptr - 1 = BitVec.ofNat 8 (u.ustack.ptr.toNat + 255) := by bv_omega
    rw [afterFetch_of_microStackPop hstack hpjan, dropTop, hptr]
  case armed =>
    have hptr : u.ustack.ptr - 1 - 1 = BitVec.ofNat 8 (u.ustack.ptr.toNat + 254) := by bv_omega
    have htop : (u.ustack.ptr - 1).toNat = (u.ustack.ptr.toNat + 255) % 256 := by bv_omega
    have hslot : s.pcs.afterNextPC = none := (hready hstack).resolve_left hpjan
    rw [afterFetch_of_microStackPop_armed hstack hpjan hslot, ← hptr, ← htop]
    rfl

end Sys2Proof.Machine
end

section
/-! # What a destination stores

For O27, O29 and O41. Each store has one rule saying what every address reads afterwards (`writeLv1_read` and its
like); `DestStores` puts them together for the functional half of any destination, whether it goes on or dies, and
the M register's store (`writeMReg_read`) comes after it. -/

namespace Sys2Proof.Machine

/-! ## Control store -/

/-- The slot a control-store destination writes: the one the top of the micro-return-stack maps to (41 R283). -/
def topSlot (s : State) : Nat :=
  (s.store.cramMap.read ((peek s).toNat / 16)).toNat * 16 + (peek s).toNat % 16

theorem microPage_toNat (u : MicroAddr) : (u.extractLsb' 4 12).toNat = u.toNat / 16 := by
  have hlt := u.isLt
  rw [toNat_extractLsb'_eq_div_mod]
  omega

theorem slotOf_peek_toNat (s : State) : (slotOf s (peek s)).toNat = topSlot s := by
  have hslot : (slotOf s (peek s)).toNat =
      (s.store.cramMap.read ((peek s).extractLsb' 4 12).toNat).toNat * 2 ^ 4 + ((peek s).extractLsb' 0 4).toNat :=
    toNat_append_eq_mul_add _ _
  have hline : ((peek s).extractLsb' 0 4).toNat = (peek s).toNat / 2 ^ 0 % 2 ^ 4 := toNat_extractLsb'_eq_div_mod _ 0 4
  rw [hslot, hline, microPage_toNat, Nat.pow_zero, Nat.div_one]
  rfl

theorem readCram_peek (s : State) : readCram s (peek s) = s.store.cram.read (topSlot s) := by
  rw [readCram, slotOf_peek_toNat]

/-- What a control-store destination makes of the slot's word (41 R283, R284). -/
def cramStore (f : FuncDest) (o : Word) (w : Slot) : Slot :=
  match f with
  | .cramLow => w.extractLsb' 32 24 ++ o
  | .cramHigh => o.extractLsb' 0 24 ++ w.extractLsb' 0 32
  | _ => w

theorem cramStore_cramLow_toNat (o : Word) (w : Slot) :
    (cramStore .cramLow o w).toNat = w.toNat / 2 ^ 32 * 2 ^ 32 + o.toNat := by
  have hlt := w.isLt
  rw [cramStore, toNat_append_eq_mul_add, toNat_extractLsb'_eq_div_mod, Nat.mod_eq_of_lt (by omega)]

theorem cramStore_cramHigh_toNat (o : Word) (w : Slot) :
    (cramStore .cramHigh o w).toNat = o.toNat % 2 ^ 24 * 2 ^ 32 + w.toNat % 2 ^ 32 := by
  rw [cramStore, toNat_append_eq_mul_add, toNat_extractLsb'_eq_div_mod, toNat_extractLsb'_eq_div_mod, Nat.pow_zero,
    Nat.div_one, Nat.div_one]

/-! ## The stores -/

theorem writeM_read (a : BitVec 12) (v : Word) (s : State) (b : BitVec 12) :
    (writeM a v s).files.mmem.read b.toNat = if a = b then v else s.files.mmem.read b.toNat := by
  rw [writeM_mmem, Cells.read_write]
  simp only [BitVec.toNat_inj]

theorem writeMReg_read (m : BitVec 6) (v : Word) (s : State) (b : BitVec 12) :
    (writeMReg m v s).files.mmem.read b.toNat = if b = m.setWidth 12 then v else s.files.mmem.read b.toNat := by
  rw [writeMReg_mmem, Cells.read_write]
  simp only [BitVec.toNat_inj, eq_comm]

theorem writeLv1_read (v : BitVec 10) (s : State) (n : Nat) :
    (writeLv1 v s).vm.lv1.read n = if n = s.vm.md.toNat / 2 ^ 13 % 4096 then v else s.vm.lv1.read n := by
  have hpage : (s.vm.md.extractLsb' 13 12).toNat = s.vm.md.toNat / 2 ^ 13 % 4096 := toNat_extractLsb'_eq_div_mod _ 13 12
  simp only [writeLv1_vm, Cells.read_write, hpage, eq_comm]

theorem writeLv2Control_read (v : BitVec 16) (s : State) (n : Nat) :
    (writeLv2Control v s).vm.lv2c.read n = if n = level2Index s s.vm.md then v else s.vm.lv2c.read n := by
  simp only [writeLv2Control_vm, Cells.read_write, lv2Index_toNat, eq_comm]

theorem writeLv2Address_read (v : BitVec 24) (s : State) (n : Nat) :
    (writeLv2Address v s).vm.lv2a.read n = if n = level2Index s s.vm.md then v else s.vm.lv2a.read n := by
  simp only [writeLv2Address_vm, Cells.read_write, lv2Index_toNat, eq_comm]

/-- Both control-store halves at once: the top slot's word, and every other slot as it was. -/
theorem cram_write_topSlot_read (f : FuncDest) (o : Word) (s : State) (n : Nat) :
    (s.store.cram.write (slotOf s (peek s)).toNat (cramStore f o (readCram s (peek s)))).read n =
      if n = topSlot s then cramStore f o (s.store.cram.read n) else s.store.cram.read n := by
  rw [Cells.read_write, slotOf_peek_toNat, readCram_peek]
  by_cases hn : n = topSlot s
  · rw [if_pos hn, if_pos hn.symm, hn]
  · rw [if_neg hn, if_neg (Ne.symm hn)]

theorem writeCramLow_read (o : Word) (s : State) (n : Nat) :
    (writeCramLow (peek s) o s).store.cram.read n =
      if n = topSlot s then cramStore .cramLow o (s.store.cram.read n) else s.store.cram.read n :=
  cram_write_topSlot_read .cramLow o s n

theorem writeCramHigh_read (o : Word) (s : State) (n : Nat) :
    (writeCramHigh (peek s) (o.extractLsb' 0 24) s).store.cram.read n =
      if n = topSlot s then cramStore .cramHigh o (s.store.cram.read n) else s.store.cram.read n :=
  cram_write_topSlot_read .cramHigh o s n

theorem writeCramMap_read (v : BitVec 12) (s : State) (n : Nat) :
    (writeCramMap (peek s) v s).store.cramMap.read n =
      if n = (peek s).toNat / 16 then v else s.store.cramMap.read n := by
  simp only [writeCramMap_store, Cells.read_write, microPage_toNat, eq_comm]

theorem cramStore_of_ne {f : FuncDest} (hlow : f ≠ .cramLow) (hhigh : f ≠ .cramHigh) (o : Word) (w : Slot) :
    cramStore f o w = w := by
  cases f
  case cramLow => exact absurd rfl hlow
  case cramHigh => exact absurd rfl hhigh
  all_goals rfl

/-! ## The functional half -/

/-- The memories after the functional half of a destination with output `o`, word by word (41 R271 to R273, R280 to
R285), from `s` to `t`. -/
structure DestStores (f : FuncDest) (o : Word) (s t : State) : Prop where
  amem : t.files.amem = s.files.amem
  mmem : ∀ a : BitVec 12, t.files.mmem.read a.toNat = if pdlStore f s = some a then o else s.files.mmem.read a.toNat
  cram : ∀ n, t.store.cram.read n = if n = topSlot s then cramStore f o (s.store.cram.read n) else s.store.cram.read n
  cramMap : ∀ n, t.store.cramMap.read n =
    if f = .cramMap ∧ n = (peek s).toNat / 16 then o.extractLsb' 0 12 else s.store.cramMap.read n
  lv1 : ∀ n, t.vm.lv1.read n =
    if f = .lv1Map ∧ n = s.vm.md.toNat / 2 ^ 13 % 4096 then o.extractLsb' 0 10 else s.vm.lv1.read n
  lv2c : ∀ n, t.vm.lv2c.read n =
    if f = .lv2MapControl ∧ n = level2Index s s.vm.md then o.extractLsb' 0 16 else s.vm.lv2c.read n
  lv2a : ∀ n, t.vm.lv2a.read n =
    if f = .lv2MapAddress ∧ n = level2Index s s.vm.md then o.extractLsb' 0 24 else s.vm.lv2a.read n
  others : t.store.mid = s.store.mid ∧ t.spyUnit = s.spyUnit ∧ t.ustack = s.ustack ∧ t.cfg = s.cfg

section
variable {f : FuncDest} {m : BitVec 6} {o : Word} {s t : State}

theorem startAccess_destStores {kind : AccessKind} {force : Bool} {pend : BusPending}
    (hf : f.start.isSome = true) (h : (startAccess o kind force pend s).Leaves t) : DestStores f o s t := by
  obtain ⟨hframe, hlv1, hlv2c, hlv2a, -⟩ := startAccess_frame o kind force pend s t h
  rw [hframe]
  cases f <;> cases hf <;> constructor <;> simp [pdlStore, cramStore, hlv1, hlv2c, hlv2a]

theorem funcDest_destStores (h : (funcDest f o s).Leaves t) : DestStores f o s t := by
  cases f
  case vmaStartRead | vmaStartWrite | vmaStartReadForce | vmaStartWriteForce => exact startAccess_destStores rfl h
  all_goals rcases h with h | ⟨k, h⟩ <;> cases h
  case cPdlPointer | cPdlPointerPush | cPdlIndex =>
    constructor
    case mmem => simpa only [pdlStore, Option.some.injEq] using writeM_read _ o _
    all_goals simp [cramStore]
  case lv1Map =>
    constructor
    case lv1 => simpa only [true_and] using writeLv1_read _ s
    all_goals simp [pdlStore, cramStore]
  case lv2MapControl =>
    constructor
    case lv2c => simpa only [true_and] using writeLv2Control_read _ s
    all_goals simp [pdlStore, cramStore]
  case lv2MapAddress =>
    constructor
    case lv2a => simpa only [true_and] using writeLv2Address_read _ s
    all_goals simp [pdlStore, cramStore]
  case cramLow =>
    constructor
    case cram => exact writeCramLow_read o s
    all_goals simp [pdlStore]
  case cramHigh =>
    constructor
    case cram => exact writeCramHigh_read o s
    all_goals simp [pdlStore]
  case cramMap =>
    constructor
    case cramMap => simpa only [true_and, armCsWrite_frame] using writeCramMap_read _ s
    all_goals simp [pdlStore, cramStore]
  all_goals constructor <;> simp [pdlStore, cramStore]

/-! ## Writeback -/

theorem writeback_func_go (h : writeback (.func f m) o s = .go t) :
    ∃ u, funcDest f o s = .go u ∧ t = writeMReg m o u := by
  obtain ⟨u, hu, ht⟩ := Flow.bind_eq_go.mp h
  exact ⟨u, hu, (Flow.go.inj ht).symm⟩

theorem writeMReg_stored (f : FuncDest) (m : BitVec 6) (o : Word) (s : State) :
    Stored (.func f m) o (writeMReg m o s) := by
  refine ⟨?_, fun hmirror => ?_⟩
  · rw [readM, writeMReg_read, if_pos rfl]
  · simp only [writeMReg_frame] at hmirror
    rw [readA, writeMReg_amem, if_pos hmirror, Cells.read_write, if_pos rfl]

theorem writeA_stored (a : BitVec 12) (o : Word) (s : State) : Stored (.a a) o (writeA a o s) := by
  simp [Stored, readA]

/-- The low bits of the output, as a number. -/
theorem extractLsb'_zero_eq_ofNat (o : Word) (n : Nat) : o.extractLsb' 0 n = BitVec.ofNat n o.toNat := by
  apply BitVec.eq_of_toNat_eq
  rw [toNat_extractLsb'_eq_div_mod, Nat.pow_zero, Nat.div_one, BitVec.toNat_ofNat]

theorem writeback_mmem_read (h : writeback (.func f m) o s = .go t) (a : BitVec 12) :
    t.files.mmem.read a.toNat =
      if a = m.setWidth 12 ∨ pdlStore f s = some a then o else s.files.mmem.read a.toNat := by
  obtain ⟨u, hu, rfl⟩ := writeback_func_go h
  rw [writeMReg_read, (funcDest_destStores (.inl hu)).mmem]
  by_cases ha : a = m.setWidth 12 <;> simp [ha]

theorem funcDest_csWrite (hf : f = .cramLow ∨ f = .cramHigh ∨ f = .cramMap) (h : funcDest f o s = .go t) :
    t.stalls.csWrite = true := by
  rcases hf with rfl | rfl | rfl <;> cases h <;> rfl

theorem funcDest_cPdlPointerPush (h : funcDest .cPdlPointerPush o s = .go t) :
    t.data.pdlPointer = s.data.pdlPointer + 1 := by
  cases h
  rfl

end

/-- Settles O27: a ready destination goes through to the store of its memory word; one that is not dies before it. -/
theorem writebackStoresTheOutput : Obligations.WritebackStoresTheOutput := by
  intro d o s
  cases d with
  | a addr => exact ⟨fun _ => ⟨writeA addr o s, rfl, writeA_stored addr o s⟩, fun hn => absurd trivial hn⟩
  | func f m =>
    refine ⟨fun hready => ?stored, fun hn => ?dies⟩
    case stored =>
      obtain ⟨t, ht⟩ := funcDest_go f o s m hready
      exact ⟨writeMReg m o t, by rw [writeback_func, ht, Flow.bind_go], writeMReg_stored f m o t⟩
    case dies =>
      obtain ⟨k, t, ht, hleft⟩ := funcDest_die f o s m hn
      refine ⟨k, t, by rw [writeback_func, ht, Flow.bind_die], ?_⟩
      rcases hleft with rfl | ⟨kind, force, rfl⟩
      · rfl
      · simp

/-- Settles O29: the functional half's stores, then the M register's, which reaches no other memory. -/
theorem memoryDestinationsStore : Obligations.MemoryDestinationsStore := by
  intro f m o s t h top slot
  have hmmem := writeback_mmem_read h
  obtain ⟨u, hu, rfl⟩ := writeback_func_go h
  have hstores := funcDest_destStores (.inl hu)
  have harmed := fun hf => funcDest_csWrite hf hu
  obtain ⟨-, hstore, -, hvm, -, -, hdata, -, hstalls, -⟩ := writeMReg_frame m o u
  rw [hstore, hvm, hdata, hstalls]
  refine ⟨hmmem, ?push, ?lv1, ?lv2c, ?lv2a, ?low, ?high, ?map⟩
  case push =>
    rintro rfl
    rw [funcDest_cPdlPointerPush hu, BitVec.toNat_add]
    rfl
  case lv1 =>
    rintro rfl a
    simpa only [true_and, extractLsb'_zero_eq_ofNat] using hstores.lv1 a
  case lv2c =>
    rintro rfl a
    simpa only [true_and, extractLsb'_zero_eq_ofNat] using hstores.lv2c a
  case lv2a =>
    rintro rfl a
    simpa only [true_and, extractLsb'_zero_eq_ofNat] using hstores.lv2a a
  case low =>
    rintro rfl
    refine ⟨harmed (.inl rfl), fun a => ?_⟩
    rw [hstores.cram, apply_ite BitVec.toNat, cramStore_cramLow_toNat]
    rfl
  case high =>
    rintro rfl
    refine ⟨harmed (.inr (.inl rfl)), fun a => ?_⟩
    rw [hstores.cram, apply_ite BitVec.toNat, cramStore_cramHigh_toNat]
    rfl
  case map =>
    rintro rfl
    refine ⟨harmed (.inr (.inr rfl)), fun a => ?_⟩
    rw [hstores.cramMap, extractLsb'_zero_eq_ofNat]
    simp only [true_and]
    rfl

end Sys2Proof.Machine
end

section
/-! # Destinations that load a register

For O28 and O35. Each names one register and gives it the output or its low bits; the multiplier input also gives the
product, and `INTERRUPT_CLEAR` clears the active vector and looks for the next one. -/

namespace Sys2Proof.Machine

/-! ## The multiplier -/

theorem product_unsigned_toNat (o : Word) :
    (product false o).toNat = (o.toNat % 2 ^ 16) * (o.toNat / 2 ^ 16) := by
  have hlow : (o.extractLsb' 0 16).toNat = o.toNat % 2 ^ 16 := by
    rw [toNat_extractLsb'_eq_div_mod, Nat.pow_zero, Nat.div_one]
  have hhigh : (o.extractLsb' 16 16).toNat = o.toNat / 2 ^ 16 := by
    have hlt := o.isLt
    rw [toNat_extractLsb'_eq_div_mod, Nat.mod_eq_of_lt (by omega)]
  rw [product, if_neg Bool.false_ne_true, BitVec.toNat_mul, toNat_setWidth_word (by decide),
    toNat_setWidth_word (by decide), Nat.mod_eq_of_lt BitVec.toNat_mul_toNat_lt, hlow, hhigh]

/-- Two signed 16-bit factors: the product does not wrap at 32 bits. -/
theorem product_signed_toInt (o : Word) :
    (product true o).toInt = (o.extractLsb' 0 16).toInt * (o.extractLsb' 16 16).toInt := by
  have hle := BitVec.toInt_mul_toInt_le (x := o.extractLsb' 0 16) (y := o.extractLsb' 16 16)
  have hge := BitVec.le_toInt_mul_toInt (x := o.extractLsb' 0 16) (y := o.extractLsb' 16 16)
  rw [product, if_pos rfl, BitVec.toInt_mul, BitVec.toInt_signExtend_of_le (by decide),
    BitVec.toInt_signExtend_of_le (by decide), Int.bmod_eq_of_le (by omega) (by omega)]

/-! ## The loads -/

theorem lowBits_toNat (o : Word) : (o.extractLsb' 0 12).toNat = o.toNat % 4096 := by
  rw [extractLsb'_zero_eq_ofNat, BitVec.toNat_ofNat]

/-- Settles O28: the functional half loads its register, and the M register's store after it reaches none of them. -/
theorem registerDestinationsLoad : Obligations.RegisterDestinationsLoad := by
  intro f m o s t h
  obtain ⟨u, hu, rfl⟩ := writeback_func_go h
  simp only [writeMReg_frame]
  refine ⟨?lc, ?dpMode, ?rgMode, ?pdlPointer, ?pdlIndex, ?vma, ?md, ?mult, ?stat, ?aux, ?imodLow, ?imodHigh⟩ <;>
    rintro rfl <;> cases hu
  case pdlPointer | pdlIndex => exact lowBits_toNat o
  case vma => exact ⟨rfl, rfl, rfl⟩
  case mult =>
    refine ⟨rfl, fun hsigned => ?_, fun hsigned => ?_⟩
    · rw [hsigned, product_unsigned_toNat]
    · rw [hsigned, product_signed_toInt]
  case imodHigh => rw [extractLsb'_zero_eq_ofNat]
  all_goals rfl

/-! ## The interrupt state -/

/-- The search for the lowest pending vector finds it (60_exceptions R504). -/
theorem lowestPending_eq_some_iff (status : Cells 1) (i : Nat) :
    lowestPending status = some i ↔ i < 256 ∧ status.read i = 1 ∧ ∀ j, j < i → status.read j ≠ 1 := by
  simp only [lowestPending, List.find?_range_eq_some, List.mem_range, beq_iff_eq, Bool.not_eq_true',
    beq_eq_false_iff_ne]
  exact and_left_comm

theorem lowestPending_eq_none_iff (status : Cells 1) :
    lowestPending status = none ↔ ∀ n, n < 256 → status.read n ≠ 1 := by
  simp [lowestPending, intVectors]

/-- The recomputed vector is pending and the lowest one that is. -/
theorem recomputeVector_lowest (s : State) {n : Nat} (hn : n < 256) (hpending : s.intr.status.read n = 1) :
    s.intr.status.read (recomputeVector s).intr.vector.toNat = 1 ∧ (recomputeVector s).intr.vector.toNat ≤ n := by
  unfold recomputeVector
  split
  next i hi =>
    obtain ⟨hlt, hset, hlowest⟩ := (lowestPending_eq_some_iff _ i).mp hi
    have hvector : (BitVec.ofNat 8 i).toNat = i := by rw [BitVec.toNat_ofNat, Nat.mod_eq_of_lt hlt]
    rw [hvector]
    exact ⟨hset, Nat.le_of_not_lt fun hless => hlowest n hless hpending⟩
  next hnone => exact absurd hpending ((lowestPending_eq_none_iff _).mp hnone n hn)

/-- With nothing pending the vector stays. -/
theorem recomputeVector_of_none {s : State} (h : ∀ n, n < 256 → s.intr.status.read n = 0) :
    recomputeVector s = s := by
  have hnone : lowestPending s.intr.status = none :=
    (lowestPending_eq_none_iff _).mpr fun n hn => by rw [h n hn]; decide
  rw [recomputeVector, hnone]

/-- The active vector's bit cleared and counted off, before the recomputation (60_exceptions R503). -/
def clearActive (s : State) : State := if intStatus s s.intr.vector == 1 then unmarkPending s.intr.vector s else s

theorem intClear_eq (s : State) : intClear s = recomputeVector (clearActive s) := rfl

theorem clearActive_pending (s : State) :
    (clearActive s).intr.pending =
      if s.intr.status.read s.intr.vector.toNat = 1 then s.intr.pending - 1 else s.intr.pending := by
  simp only [clearActive, intStatus, beq_iff_eq]
  split <;> rfl

theorem clearActive_vector (s : State) : (clearActive s).intr.vector = s.intr.vector := by
  unfold clearActive
  split <;> rfl

/-- A bit that is not set is clear already. -/
theorem clearActive_status_read (s : State) (n : Nat) :
    (clearActive s).intr.status.read n = if n = s.intr.vector.toNat then 0 else s.intr.status.read n := by
  unfold clearActive
  split
  next => simp only [unmarkPending_intr, Cells.read_write, eq_comm]
  next hclear =>
    split
    next hn =>
      rw [hn]
      exact (BitVec.eq_zero_or_eq_one _).resolve_right (mt beq_iff_eq.mpr hclear)
    next => rfl

/-- Settles O35: the clearing, the recomputation, and the M register's store, which leaves the interrupt state. -/
theorem interruptClearClearsTheActiveVector : Obligations.InterruptClearClearsTheActiveVector := by
  intro m o s
  obtain ⟨hpending, hstatus⟩ := recomputeVector_intr (clearActive s)
  have hintr : (writeMReg m o (intClear s)).intr = (recomputeVector (clearActive s)).intr := by
    rw [← intClear_eq]
    simp
  refine ⟨writeMReg m o (intClear s), rfl, ?_⟩
  rw [hintr, hpending, hstatus]
  refine ⟨clearActive_pending s, clearActive_status_read s, fun n => recomputeVector_lowest _, fun hnone => ?_⟩
  rw [recomputeVector_of_none hnone, clearActive_vector]

end Sys2Proof.Machine
end

section
/-! # Conditions and CALLs

For O41. When a JUMP is taken, by `TestTrue`, and which entry of the micro-return-stack a transfer can store to:
none but the one `callSlot` names, and only by a CALL. -/

namespace Sys2Proof.Machine

/-! ## Conditions -/

theorem typeField_ne_iff (a m : Word) :
    (m.extractLsb' 25 7 != a.extractLsb' 25 7) = true ↔ m.toNat / 2 ^ 25 ≠ a.toNat / 2 ^ 25 := by
  have hfield : ∀ x : Word, (x.extractLsb' 25 7).toNat = x.toNat / 2 ^ 25 := by
    intro x
    have hlt := x.isLt
    rw [toNat_extractLsb'_eq_div_mod]
    omega
  rw [bne_iff_ne, ne_eq, ← BitVec.toNat_inj, hfield, hfield]

/-- Bit 0 after a rotation to the left (45_jump R410). -/
theorem rotateLeft_bit_zero (m : Word) (rot : BitVec 5) :
    (m.rotateLeft rot.toNat).getLsbD 0 = m.getLsbD ((32 - rot.toNat) % 32) := by
  have hlt := rot.isLt
  rw [BitVec.getLsbD_rotateLeft, Nat.mod_eq_of_lt hlt]
  rcases Nat.eq_zero_or_pos rot.toNat with hzero | hpos
  · simp [hzero]
  · have hbit : 32 - rot.toNat < 32 := by omega
    simp only [hpos, decide_true, cond_true, Nat.mod_eq_of_lt hbit, Nat.add_zero]

theorem pfOrInt_iff (s : State) : pfOrInt s = true ↔ s.vm.pageFault = true ∨ s.intr.pending.toNat ≠ 0 := by
  have hpending : (s.intr.pending != 0) = true ↔ s.intr.pending.toNat ≠ 0 := by
    rw [bne_iff_ne, ne_eq, ← BitVec.toNat_inj]
    rfl
  rw [pfOrInt, Bool.or_eq_true, hpending]

/-- The model's condition is the rule's (45_jump R401 to R408). -/
theorem conditionHolds_iff {c : Condition} {a m : Word} {s : State} {b : Bool} (h : conditionHolds c a m s = some b) :
    b = true ↔ TestTrue (.cond c) a m s := by
  cases c <;> cases h
  case typeMismatch.refl => exact typeField_ne_iff a m
  case lt.refl => exact BitVec.slt_iff_toInt_lt
  case le.refl => exact BitVec.sle_iff_toInt_le
  case ne.refl => exact bne_iff_ne
  case noPf.refl => exact iff_of_eq (Bool.not_eq_true' _)
  case pfInt.refl => exact pfOrInt_iff s
  case pfIntSb.refl =>
    rw [Bool.or_eq_true, pfOrInt_iff, or_assoc]
    rfl
  case always.refl => exact iff_of_true rfl trivial

theorem testHolds_iff {t : JumpTest} {a m : Word} {s : State} {b : Bool} (h : testHolds t a m s = some b) :
    b = true ↔ TestTrue t a m s := by
  cases t with
  | cond c => exact conditionHolds_iff h
  | bit rot =>
    cases h
    rw [rotateLeft_bit_zero, TestTrue]

/-- A JUMP transfers exactly when it is taken (R400). -/
theorem taken_iff {f : JumpFields} {a m : Word} {s : State} {b : Bool} (h : testHolds f.test a m s = some b) :
    (b != f.inv) = true ↔ Taken f a m s := by
  rw [Taken, ← testHolds_iff h]
  cases b <;> cases f.inv <;> simp

/-! ## The entry a CALL stores -/

/-- A transfer, going through or dying, stores to no entry of the micro-return-stack but a CALL to `callSlot`'s. -/
theorem transfer_ring {tr : Transfer} {target : MicroAddr} {lpc : Bool} {s t : State}
    (h : (transfer tr target lpc s).Leaves t) {n : BitVec 8} (hn : tr.calls = true → callSlot s ≠ some n) :
    t.ustack.ring.read n.toNat = s.ustack.ring.read n.toNat := by
  have hafter : ∀ {x : MicroAddr} {u : State}, (goAfterNext x u).Leaves t → t.ustack = u.ustack := by
    intro x u hu
    rw [goAfterNext_eq] at hu
    split at hu <;> rcases hu with hu | ⟨k, hu⟩ <;> cases hu <;> rfl
  cases tr
  case jumpXctNext => rw [hafter h]
  case jump | ret =>
    rcases h with h | ⟨k, h⟩ <;> cases h
    rfl
  case call =>
    rcases h with h | ⟨k, h⟩ <;> cases h
    exact pushReturn_ring _ s n (hn rfl)
  case callXctNext =>
    rw [hafter h]
    exact pushReturn_ring _ s n (hn rfl)
  case retXctNext =>
    rw [hafter h]
    rfl

theorem calls_iff_code (tr : Transfer) : tr.calls = true ↔ tr.code ∈ [2, 3] := by
  cases tr <;> decide

/-- A dispatch word transfers by a CALL only with one of the two CALL codes (46_dispatch R434). -/
theorem code_of_transferOf_calls {w : Word} {tr : Transfer} (h : transferOf (w.extractLsb' 16 3) = some tr)
    (hcalls : tr.calls = true) : w.toNat / 2 ^ 16 % 8 ∈ [2, 3] := by
  have hcode : ∀ (rpn : BitVec 3) (tr : Transfer), transferOf rpn = some tr → rpn.toNat = tr.code := by
    intro rpn tr
    revert rpn
    cases tr <;> decide
  have hfield : (w.extractLsb' 16 3).toNat = w.toNat / 2 ^ 16 % 8 := toNat_extractLsb'_eq_div_mod w 16 3
  rw [← hfield, hcode _ _ h]
  exact (calls_iff_code tr).mp hcalls

end Sys2Proof.Machine
end

section
/-! # The memory words an instruction does not store to

For O41. `MemoryFrame` names the clauses of the statement. Operand fetch leaves every memory (`afterFetch_memories`),
so the one act of an instruction that stores, its writeback or its transfer, begins with the memories of the state
the instruction executes in, and stores where `DestStores` and `callSlot` say. -/

namespace Sys2Proof.Machine

/-- All that the frame speaks of. -/
def memories (s : State) : Files × Store × (Cells 10 × Cells 16 × Cells 24) × Debug × Cells 16 :=
  (s.files, s.store, (s.vm.lv1, s.vm.lv2c, s.vm.lv2a), s.spyUnit, s.ustack.ring)

theorem memories_eq_iff (s t : State) :
    memories t = memories s ↔ t.files = s.files ∧ t.store = s.store
      ∧ (t.vm.lv1 = s.vm.lv1 ∧ t.vm.lv2c = s.vm.lv2c ∧ t.vm.lv2a = s.vm.lv2a) ∧ t.spyUnit = s.spyUnit
      ∧ t.ustack.ring = s.ustack.ring := by
  simp [memories]

/-! ## Operand fetch -/

theorem startAccess_memories {v : Word} {kind : AccessKind} {force : Bool} {pend : BusPending} {s t : State}
    (h : (startAccess v kind force pend s).Leaves t) : memories t = memories s ∧ callSlot t = callSlot s := by
  obtain ⟨hframe, hlv1, hlv2c, hlv2a, -⟩ := startAccess_frame v kind force pend s t h
  rw [memories_eq_iff, hframe]
  exact ⟨⟨rfl, rfl, ⟨hlv1, hlv2c, hlv2a⟩, rfl, rfl⟩, rfl⟩

theorem afterStream_memories (c : Common) (s : State) :
    memories (afterStream c s) = memories s ∧ (afterStream c s).vm.md = s.vm.md
      ∧ (afterStream c s).cfg = s.cfg := by
  obtain ⟨hframe, hlv1, hlv2c, hlv2a, hmd, -⟩ := afterStream_frame c s
  rw [memories_eq_iff, hframe]
  exact ⟨⟨rfl, rfl, ⟨hlv1, hlv2c, hlv2a⟩, rfl, rfl⟩, hmd, rfl⟩

theorem mOperand_memories {src : MSource} {s t : State}
    (h : (∃ v, mOperand src s = .go (v, t)) ∨ ∃ k, mOperand src s = .die k t) :
    memories t = memories s ∧ t.vm.md = s.vm.md ∧ t.cfg = s.cfg := by
  rw [(mOperand_frame src s t h).1]
  exact ⟨rfl, rfl, rfl⟩

theorem afterFetch_memories (c : Common) (s : State) :
    memories (afterFetch c s) = memories s ∧ (afterFetch c s).vm.md = s.vm.md ∧ (afterFetch c s).cfg = s.cfg := by
  have hsource : ∀ t, ((∃ v, mOperand c.mSrc (afterStream c s) = .go (v, t)) ∨
      ∃ k, mOperand c.mSrc (afterStream c s) = .die k t) →
      memories t = memories s ∧ t.vm.md = s.vm.md ∧ t.cfg = s.cfg := by
    intro t ht
    obtain ⟨hmem, hmd, hcfg⟩ := mOperand_memories ht
    rw [hmem, hmd, hcfg]
    exact afterStream_memories c s
  unfold afterFetch
  cases hx : mOperand c.mSrc (afterStream c s) with
  | go p => exact hsource p.2 (.inl ⟨p.1, hx⟩)
  | die k t => exact hsource t (.inr ⟨k, hx⟩)

theorem fetchOperands_die_memories {c : Common} {s t : State} {k : DieCause} (h : fetchOperands c s = .die k t) :
    memories t = memories s := by
  obtain ⟨hstream, -⟩ := afterStream_memories c s
  by_cases hready : StreamReady c s
  · have hbind : fetchOperands c s = (mOperand c.mSrc (afterStream c s)).bind _ :=
      congrArg (Flow.bind · _) (streamStep_go c s hready)
    rcases Flow.bind_eq_die.mp (hbind.symm.trans h) with hdie | ⟨p, -, hgo⟩
    · exact (mOperand_memories (.inr ⟨k, hdie⟩)).1.trans hstream
    · cases hgo
  · cases (fetchOperands_die_of_not_streamReady hready).symm.trans h
    exact hstream

/-! ## The frame -/

/-- Each memory word is the same in `s` and `t` unless the instruction stores to it. -/
structure MemoryFrame (i : Instr) (s t : State) : Prop where
  amem : ∀ a : BitVec 12, ¬ StoresA i s a → t.files.amem.read a.toNat = s.files.amem.read a.toNat
  mmem : ∀ a : BitVec 12, ¬ StoresM i s a → t.files.mmem.read a.toNat = s.files.mmem.read a.toNat
  cram : ∀ n, ¬ ((i.func = some .cramLow ∨ i.func = some .cramHigh) ∧ n = topSlot (afterFetch i.common s)) →
    t.store.cram.read n = s.store.cram.read n
  cramMap : ∀ n, ¬ (i.func = some .cramMap ∧ n = (peek (afterFetch i.common s)).toNat / 16) →
    t.store.cramMap.read n = s.store.cramMap.read n
  lv1 : ∀ n, ¬ (i.func = some .lv1Map ∧ n = s.vm.md.toNat / 2 ^ 13 % 4096) → t.vm.lv1.read n = s.vm.lv1.read n
  lv2c : ∀ n, ¬ (i.func = some .lv2MapControl ∧ n = level2Index s s.vm.md) → t.vm.lv2c.read n = s.vm.lv2c.read n
  lv2a : ∀ n, ¬ (i.func = some .lv2MapAddress ∧ n = level2Index s s.vm.md) → t.vm.lv2a.read n = s.vm.lv2a.read n
  others : t.store.mid = s.store.mid ∧ t.spyUnit = s.spyUnit
  ring : ∀ n : BitVec 8, ¬ StoresStack i s n → t.ustack.ring.read n.toNat = s.ustack.ring.read n.toNat

section
variable {i : Instr} {s t u : State}

theorem MemoryFrame.of_memories_eq (h : memories t = memories s) : MemoryFrame i s t := by
  obtain ⟨hfiles, hstore, ⟨hlv1, hlv2c, hlv2a⟩, hspy, hring⟩ := (memories_eq_iff s t).mp h
  constructor <;> simp [hfiles, hstore, hlv1, hlv2c, hlv2a, hspy, hring]

theorem MemoryFrame.congr (h : MemoryFrame i s t) (hu : memories u = memories t) : MemoryFrame i s u := by
  obtain ⟨hfiles, hstore, ⟨hlv1, hlv2c, hlv2a⟩, hspy, hring⟩ := (memories_eq_iff t u).mp hu
  cases h
  constructor <;> simpa only [hfiles, hstore, hlv1, hlv2c, hlv2a, hspy, hring]

/-- A store to the register files alone. -/
theorem MemoryFrame.with_files (h : MemoryFrame i s t) (hu : memories { u with files := t.files } = memories t)
    (hamem : ∀ a : BitVec 12, ¬ StoresA i s a → u.files.amem.read a.toNat = t.files.amem.read a.toNat)
    (hmmem : ∀ a : BitVec 12, ¬ StoresM i s a → u.files.mmem.read a.toNat = t.files.mmem.read a.toNat) :
    MemoryFrame i s u :=
  { h.congr hu with
    amem := fun a ha => (hamem a ha).trans (h.amem a ha)
    mmem := fun a ha => (hmmem a ha).trans (h.mmem a ha) }

/-- A store to the micro-return-stack alone. -/
theorem MemoryFrame.of_ring (h : memories { t with ustack := s.ustack } = memories s)
    (hring : ∀ n : BitVec 8, ¬ StoresStack i s n → t.ustack.ring.read n.toNat = s.ustack.ring.read n.toNat) :
    MemoryFrame i s t :=
  { MemoryFrame.of_memories_eq h with ring := hring }

/-! ## Writeback -/

/-- The functional half of the destination has the frame. -/
theorem funcDest_memoryFrame {f : FuncDest} {m : BitVec 6} (hd : i.dest = some (.func f m)) {o : Word}
    (h : (funcDest f o (afterFetch i.common s)).Leaves t) : MemoryFrame i s t := by
  have hf : i.func = some f := func_eq_some_iff.mpr ⟨m, hd⟩
  obtain ⟨hmem, hmd, -⟩ := afterFetch_memories i.common s
  obtain ⟨hfiles, hstore, ⟨hlv1, hlv2c, hlv2a⟩, hspy, hring⟩ := (memories_eq_iff _ _).mp hmem
  obtain ⟨hmid, hspy', hustack, -⟩ := (funcDest_destStores h).others
  have hstores := funcDest_destStores h
  have hindex : level2Index (afterFetch i.common s) (afterFetch i.common s).vm.md = level2Index s s.vm.md := by
    rw [level2Index, level2Index, hlv1, hmd]
  constructor
  case amem => exact fun a _ => by rw [hstores.amem, hfiles]
  case mmem =>
    intro a ha
    simp only [StoresM, hd, not_or] at ha
    rw [hstores.mmem, if_neg ha.2, hfiles]
  case cram =>
    intro n hn
    rw [hstores.cram, hstore]
    split
    next htop =>
      rw [hf] at hn
      exact cramStore_of_ne (fun h => hn ⟨.inl (congrArg some h), htop⟩)
        (fun h => hn ⟨.inr (congrArg some h), htop⟩) _ _
    next => rfl
  case cramMap => exact fun n hn => by rw [hstores.cramMap, if_neg (by simpa [hf] using hn), hstore]
  case lv1 => exact fun n hn => by rw [hstores.lv1, hmd, if_neg (by simpa [hf] using hn), hlv1]
  case lv2c => exact fun n hn => by rw [hstores.lv2c, hindex, if_neg (by simpa [hf] using hn), hlv2c]
  case lv2a => exact fun n hn => by rw [hstores.lv2a, hindex, if_neg (by simpa [hf] using hn), hlv2a]
  case others => exact ⟨by rw [hmid, hstore], by rw [hspy', hspy]⟩
  case ring => exact fun n _ => by rw [hustack, hring]

theorem writeMReg_memoryFrame {f : FuncDest} {m : BitVec 6} (hd : i.dest = some (.func f m)) {o : Word}
    (h : MemoryFrame i s t) (hcfg : t.cfg = s.cfg) : MemoryFrame i s (writeMReg m o t) := by
  refine h.with_files (by simp [memories]) (fun a ha => ?amem) (fun a ha => ?mmem)
  case amem =>
    simp only [StoresA, hd, not_and] at ha
    rw [writeMReg_amem, hcfg]
    split
    next hmirror => rw [Cells.read_write, if_neg fun he => ha hmirror (BitVec.eq_of_toNat_eq he).symm]
    next => rfl
  case mmem =>
    simp only [StoresM, hd, not_or] at ha
    rw [writeMReg_read, if_neg ha.1]

theorem writeA_memoryFrame {a : BitVec 12} (hd : i.dest = some (.a a)) {o : Word} (h : MemoryFrame i s t) :
    MemoryFrame i s (writeA a o t) := by
  refine h.with_files rfl (fun b hb => ?_) fun _ _ => rfl
  simp only [StoresA, hd] at hb
  rw [writeA_amem, Cells.read_write, if_neg fun he => hb (BitVec.eq_of_toNat_eq he).symm]

theorem writeback_memoryFrame {d : Dest} (hd : i.dest = some d) (o : Word) :
    (writeback d o (afterFetch i.common s)).Ensures (MemoryFrame i s) (MemoryFrame i s) := by
  obtain ⟨hmem, -, hcfg⟩ := afterFetch_memories i.common s
  cases d with
  | a addr => exact writeA_memoryFrame hd (.of_memories_eq hmem)
  | func f m =>
    rw [writeback_func]
    cases hx : funcDest f o (afterFetch i.common s) with
    | go t =>
      obtain ⟨-, -, -, hcfg'⟩ := (funcDest_destStores (.inl hx)).others
      exact writeMReg_memoryFrame hd (funcDest_memoryFrame hd (.inl hx)) (hcfg'.trans hcfg)
    | die k t => exact funcDest_memoryFrame hd (.inr ⟨k, hx⟩)

/-! ## Transfers -/

theorem transfer_memoryFrame {tr : Transfer} {target : MicroAddr} {lpc : Bool} (hmem : memories u = memories s)
    (hslot : callSlot u = callSlot (afterFetch i.common s)) (hcalls : tr.calls = true → Calls i s)
    (h : (transfer tr target lpc u).Leaves t) : MemoryFrame i s t := by
  obtain ⟨hfiles, hstore, hvm, hspy, hring⟩ := (memories_eq_iff _ _).mp hmem
  refine MemoryFrame.of_ring ?_ fun n hn => ?_
  · rw [memories_eq_iff, transfer_frame tr target lpc u t h]
    exact ⟨hfiles, hstore, hvm, hspy, rfl⟩
  · rw [transfer_ring h fun hc he => hn ⟨hcalls hc, hslot ▸ he⟩, hring]

theorem transfer_ensures_memoryFrame {tr : Transfer} (hcalls : tr.calls = true → Calls i s) (target : MicroAddr)
    (lpc : Bool) (hmem : memories u = memories s) (hslot : callSlot u = callSlot (afterFetch i.common s)) :
    (transfer tr target lpc u).Ensures (MemoryFrame i s) (MemoryFrame i s) :=
  Flow.ensures_of_leaves fun _ => transfer_memoryFrame hmem hslot hcalls

theorem applyDispatchWord_memoryFrame {w : Word} (hcalls : w.toNat / 2 ^ 16 % 8 ∈ [2, 3] → Calls i s) (m : Word)
    (lpc : Bool) (hmem : memories u = memories s) (hslot : callSlot u = callSlot (afterFetch i.common s)) :
    (applyDispatchWord w m lpc u).Ensures (MemoryFrame i s) (MemoryFrame i s) := by
  unfold applyDispatchWord
  split
  · exact .of_memories_eq hmem
  next tr htr =>
    have hread : ∀ {t : State}, (startAccess m .read false .dataRead u).Leaves t →
        memories t = memories s ∧ callSlot t = callSlot (afterFetch i.common s) := fun ht =>
      have ⟨hm, hs⟩ := startAccess_memories ht
      ⟨hm.trans hmem, hs.trans hslot⟩
    refine Flow.Ensures.bind
      (Q := fun t => memories t = memories s ∧ callSlot t = callSlot (afterFetch i.common s)) ?_
      fun t ⟨hm, hs⟩ => transfer_ensures_memoryFrame (fun hc => hcalls (code_of_transferOf_calls htr hc)) _ lpc hm hs
    split
    · cases hx : startAccess m .read false .dataRead u with
      | go t => exact hread (.inl hx)
      | die k t => exact .of_memories_eq (hread (.inr ⟨k, hx⟩)).1
    · exact ⟨hmem, hslot⟩

/-! ## The instructions, format by format -/

/-- An outcome is a next state with the frame. -/
def CompletesFramed (i : Instr) (s : State) (x : Host.Outcome State Fault Refusal) : Prop :=
  ∃ t, x = .next t ∧ MemoryFrame i s t

/-- Step 11 and `Die` leave every memory. -/
theorem Flow.Ensures.completesFramed {x : Flow State} (hx : x.Ensures (MemoryFrame i s) (MemoryFrame i s)) :
    CompletesFramed i s (Machine.finish x) := by
  cases x with
  | go t => exact ⟨t, rfl, hx⟩
  | die k t => exact ⟨raiseDie t, rfl, hx.congr rfl⟩

theorem fetchOperands_bind_memoryFrame {rest : Word × Word × State → Flow State}
    (h : (rest (aValue i.common s, mValue i.common s, afterFetch i.common s)).Ensures (MemoryFrame i s)
      (MemoryFrame i s)) : CompletesFramed i s (finish ((fetchOperands i.common s).bind rest)) := by
  refine Flow.Ensures.completesFramed ?_
  by_cases hready : FetchReady i.common s
  · rw [fetchOperands_go hready]
    exact h
  · obtain ⟨k, t, hdie⟩ := fetchOperands_die hready
    rw [hdie]
    exact .of_memories_eq (fetchOperands_die_memories hdie)

theorem runAlu_framed {f : AluFields} (hd : i.dest = some f.dest) (op : AluOp) :
    CompletesFramed i s (runAlu op i.common f s) := by
  refine fetchOperands_bind_memoryFrame ?_
  dsimp only
  split
  · exact .of_memories_eq (afterFetch_memories _ s).1
  · exact (writeback_memoryFrame hd _).bind fun t ht => ht.congr rfl

theorem runByte_framed {f : ByteFields} (hd : i.dest = some f.dest) (rsrc rmask : Bool) :
    CompletesFramed i s (runByte rsrc rmask i.common f s) :=
  fetchOperands_bind_memoryFrame ((writeback_memoryFrame hd _).bind fun _ ht => ht.congr rfl)

theorem runJump_framed {tr : Transfer} {f : JumpFields} (hcalls : tr.calls = true →
    Taken f (aValue i.common s) (mValue i.common s) (afterFetch i.common s) → Calls i s) :
    CompletesFramed i s (runJump tr i.common f s) := by
  obtain ⟨hmem, -⟩ := afterFetch_memories i.common s
  refine fetchOperands_bind_memoryFrame ?_
  dsimp only
  split
  · exact .of_memories_eq hmem
  next b hb =>
    refine Flow.Ensures.bind (Q := MemoryFrame i s) ?_ fun t ht => ht.congr rfl
    split
    next htaken => exact transfer_ensures_memoryFrame (fun hc => hcalls hc ((taken_iff hb).mp htaken)) _ _ hmem rfl
    · exact .of_memories_eq hmem

end

theorem exec_dispatches_framed {c : Common} {f : DispatchFields} {s : State} {i : Instr} {w : Word}
    (hi : (i, w) ∈ [(Instr.dispatch c f, s.files.amem.read (tableIndex c f (mValue c s) (afterFetch c s))),
      (.dispatchMir c f, macroWord (afterFetch c s))]) (hc : i.common = c)
    (hcalls : w.toNat / 2 ^ 16 % 8 ∈ [2, 3] → Calls i s) : CompletesFramed i s (exec i s) := by
  by_cases hready : FetchReady c s
  · obtain ⟨d, x, hexec⟩ := exec_dispatches hi hready
    rw [hexec]
    refine Flow.Ensures.completesFramed (Flow.Ensures.bind (Q := MemoryFrame i s) ?_ fun t ht => ht.congr rfl)
    exact applyDispatchWord_memoryFrame hcalls _ _ (afterFetch_memories c s).1 (by rw [hc]; rfl)
  · obtain ⟨k, t, hdie⟩ := fetchOperands_die hready
    exact ⟨raiseDie t, exec_of_fetch_die (hc ▸ hdie),
      (MemoryFrame.of_memories_eq (fetchOperands_die_memories hdie)).congr rfl⟩

theorem exec_framed (i : Instr) (s : State) : CompletesFramed i s (exec i s) := by
  cases i
  case byteLow | byteSeldep | byteLdb | byteDpb => exact runByte_framed rfl _ _
  case call | callXctNext => exact runJump_framed fun _ htaken => htaken
  case jump | jumpXctNext | ret | retXctNext => exact runJump_framed nofun
  case dispatch => exact exec_dispatches_framed (.head _) rfl id
  case dispatchMir => exact exec_dispatches_framed (.tail _ (.head _)) rfl id
  all_goals exact runAlu_framed rfl _

/-- Settles O41: whatever the instruction, it completes or dies with its frame. -/
theorem instructionsLeaveOtherMemoryUnchanged : Obligations.InstructionsLeaveOtherMemoryUnchanged := by
  intro i s t hexec u top
  obtain ⟨t', ht', h⟩ := exec_framed i s
  obtain rfl : t' = t := Host.Outcome.next.inj (ht'.symm.trans hexec)
  obtain ⟨hmid, hspy⟩ := h.others
  obtain ⟨-, hstore, -⟩ := (memories_eq_iff _ _).mp (afterFetch_memories i.common s).1
  have hslot : topSlot u = (s.store.cramMap.read (top.toNat / 16)).toNat * 16 + top.toNat % 16 := by
    rw [← hstore]
    rfl
  exact ⟨h.amem, h.mmem, hslot ▸ h.cram, h.cramMap, hmid, h.lv1, h.lv2c, h.lv2a, hspy, h.ring⟩

end Sys2Proof.Machine
end

section
/-! # The ALU's data path, by numbers

For O19 to O24. Each piece of 42_alu between the operands and the writeback: the wide sums and the operations over
them, the mask-flag merge, the output selector and the Q update, each given once as a number or bit by bit. -/

namespace Sys2Proof.Machine

/-! ## Bits in and out -/

theorem toNat_getLsbD_eq_div_mod {w : Nat} (x : BitVec w) (k : Nat) : (x.getLsbD k).toNat = x.toNat / 2 ^ k % 2 := by
  rw [← BitVec.testBit_toNat, Nat.toNat_testBit]

theorem getLsbD_eq_iff_div_mod {v w : Nat} (x : BitVec v) (y : BitVec w) (k : Nat) :
    x.getLsbD k = y.getLsbD k ↔ x.toNat / 2 ^ k % 2 = y.toNat / 2 ^ k % 2 := by
  rw [Bool.eq_iff_iff, getLsbD_iff_div_mod, getLsbD_iff_div_mod]
  omega

/-- A bit shifted in at the top. -/
theorem ofBool_append_high_toNat (b : Bool) (x : Word) :
    (BitVec.ofBool b ++ x.extractLsb' 1 31).toNat = b.toNat * 2 ^ 31 + x.toNat / 2 := by
  have hx := x.isLt
  rw [toNat_append_eq_mul_add, toNat_extractLsb'_eq_div_mod, BitVec.toNat_ofBool]
  omega

/-- A bit shifted in at the bottom. -/
theorem low_append_ofBool_toNat (x : Word) (b : Bool) :
    (x.extractLsb' 0 31 ++ BitVec.ofBool b).toNat = 2 * x.toNat % 2 ^ 32 + b.toNat := by
  rw [toNat_append_eq_mul_add, toNat_extractLsb'_eq_div_mod, BitVec.toNat_ofBool]
  omega

/-! ## Sums -/

/-- The 33-bit sum does not wrap. -/
@[simp] theorem wideSum_toNat (x y : Word) (cin : Bool) :
    (wideSum x y cin).toNat = x.toNat + y.toNat + cin.toNat := by
  have hx := x.isLt
  have hy := y.isLt
  have hcin := cin.toNat_le
  simp only [wideSum, BitVec.toNat_add, BitVec.toNat_setWidth, BitVec.toNat_ofBool]
  omega

/-- Adding the complement: the sum the subtractions make (R320, R321, R323). -/
@[simp] theorem wideSum_not_toNat (m a : Word) (cin : Bool) :
    (wideSum m (~~~a) cin).toNat = m.toNat + (2 ^ 32 - 1 - a.toNat) + cin.toNat := by
  rw [wideSum_toNat, BitVec.toNat_not]

section
variable (a m : Word) (cin q0 : Bool)

theorem aluOpMstep_wide_toNat : (aluOpMstep a m cin q0).wide.toNat = if q0 then m.toNat + a.toNat else m.toNat := by
  cases q0 with
  | true => exact wideSum_toNat m a false
  | false => exact BitVec.toNat_setWidth_of_le (Nat.le_succ 32)

theorem aluOpDstep_wide_toNat : (aluOpDstep a m cin q0).wide.toNat =
    if q0 then m.toNat + (2 ^ 32 - 1 - a.toNat) + 1 else m.toNat + a.toNat := by
  cases q0 with
  | true => exact wideSum_not_toNat m a true
  | false => exact wideSum_toNat m a false

theorem aluOpDfstep_wide_toNat : (aluOpDfstep a m cin q0).wide.toNat = m.toNat + (2 ^ 32 - 1 - a.toNat) + 1 :=
  wideSum_not_toNat m a true

theorem aluOpRstep_wide_toNat : (aluOpRstep a m cin q0).wide.toNat = if q0 then m.toNat else m.toNat + a.toNat := by
  cases q0 with
  | true => exact BitVec.toNat_setWidth_of_le (Nat.le_succ 32)
  | false => exact wideSum_toNat m a false

theorem aluOpSub_wide_toNat : (aluOpSub a m cin q0).wide.toNat = m.toNat + (2 ^ 32 - 1 - a.toNat) + cin.toNat :=
  wideSum_not_toNat m a cin

theorem aluOpAdd_wide_toNat : (aluOpAdd a m cin q0).wide.toNat = m.toNat + a.toNat + cin.toNat :=
  wideSum_toNat m a cin

theorem aluOpIncm_wide_toNat : (aluOpIncm a m cin q0).wide.toNat = m.toNat + cin.toNat :=
  wideSum_toNat m 0 cin

theorem aluOpMplusm_wide_toNat : (aluOpMplusm a m cin q0).wide.toNat = m.toNat + m.toNat + cin.toNat :=
  wideSum_toNat m m cin

end

/-- Settles O21: with the sum as a number, the three sign bits decide whether the signed sum fits. -/
theorem addOverflowIsSignedOverflow : Obligations.AddOverflowIsSignedOverflow := by
  intro a m cin q0
  have ha := a.isLt
  have hm := m.isLt
  have hcin := cin.toNat_le
  have hsigns : (aluOpAdd a m cin q0).overflow = true ↔
      a.toNat / 2 ^ 31 % 2 = m.toNat / 2 ^ 31 % 2
        ∧ (m.toNat + a.toNat + cin.toNat) / 2 ^ 31 % 2 ≠ m.toNat / 2 ^ 31 % 2 := by
    rw [aluOpAdd, addOverflow, Bool.and_eq_true, beq_iff_eq, bne_iff_ne, ne_eq, getLsbD_eq_iff_div_mod,
      getLsbD_eq_iff_div_mod, wideSum_toNat]
  rw [hsigns, BitVec.toInt_eq_toNat_cond, BitVec.toInt_eq_toNat_cond]
  split <;> split <;> omega

/-! ## The mask flag and the output selector -/

theorem maskMerge_toNat (a r : Word) :
    (maskMerge a r).toNat = a.toNat / 2 ^ 25 * 2 ^ 25 + r.toNat % 2 ^ 25 := by
  have ha := a.isLt
  rw [maskMerge, toNat_append_eq_mul_add, toNat_extractLsb'_eq_div_mod, toNat_extractLsb'_eq_div_mod]
  omega

theorem maskMerge_eq_ofNat (a r : Word) :
    maskMerge a r = BitVec.ofNat 32 (a.toNat / 2 ^ 25 * 2 ^ 25 + r.toNat % 2 ^ 25) := by
  rw [← maskMerge_toNat, BitVec.ofNat_toNat, BitVec.setWidth_eq]

theorem signExtend25_toInt (r : Word) :
    ((r.extractLsb' 0 25).signExtend 32).toInt =
      if r.toNat % 2 ^ 25 < 2 ^ 24 then ((r.toNat % 2 ^ 25 : Nat) : Int)
      else ((r.toNat % 2 ^ 25 : Nat) : Int) - 2 ^ 25 := by
  have hlow : (r.extractLsb' 0 25).toNat = r.toNat % 2 ^ 25 := by rw [extractLsb'_zero_eq_ofNat, BitVec.toNat_ofNat]
  rw [BitVec.toInt_signExtend_of_le (by decide), BitVec.toInt_eq_toNat_cond, hlow]
  split <;> split <;> omega

theorem and_low11_toNat (r : Word) : (r &&& 0x7FF).toNat = r.toNat % 2 ^ 11 := by
  rw [BitVec.toNat_and]
  exact Nat.and_two_pow_sub_one_eq_mod r.toNat 11

theorem reverse_getLsbD (r : Word) (k : Nat) (hk : k < 32) : r.reverse.getLsbD k = r.getLsbD (31 - k) := by
  rw [BitVec.getLsbD_reverse, BitVec.getMsbD, decide_eq_true hk, Bool.true_and]

/-- Settles O22, mode by mode. -/
theorem outputSelectorModes : Obligations.OutputSelectorModes := by
  intro r a q carry
  have hsign : (q.getLsbD 31).toNat = q.toNat / 2 ^ 31 := by
    have hq := q.isLt
    rw [toNat_getLsbD_eq_div_mod]
    omega
  exact ⟨rfl, ⟨_, rfl, ofBool_append_high_toNat carry r⟩, ⟨_, rfl, signExtend25_toInt r⟩, ⟨_, rfl, and_low11_toNat r⟩,
    ⟨_, rfl, hsign ▸ low_append_ofBool_toNat r _⟩, ⟨_, rfl, reverse_getLsbD r⟩, ⟨_, rfl, maskMerge_toNat a r⟩, rfl⟩

/-! ## The Q update -/

theorem updateQ_left_toNat (q r : Word) :
    (updateQ .left q r).toNat = 2 * q.toNat % 2 ^ 32 + (1 - r.toNat / 2 ^ 31) := by
  have hr := r.isLt
  have hnot : ∀ b : Bool, (!b).toNat = 1 - b.toNat := by decide
  have hsign : (!r.getLsbD 31).toNat = 1 - r.toNat / 2 ^ 31 := by
    rw [hnot, toNat_getLsbD_eq_div_mod]
    omega
  rw [← hsign]
  exact low_append_ofBool_toNat q _

theorem updateQ_right_toNat (q r : Word) :
    (updateQ .right q r).toNat = r.toNat % 2 * 2 ^ 31 + q.toNat / 2 := by
  have hbit : (r.getLsbD 0).toNat = r.toNat % 2 := by rw [toNat_getLsbD_eq_div_mod, Nat.pow_zero, Nat.div_one]
  rw [← hbit]
  exact ofBool_append_high_toNat _ q

/-- Settles O23, update by update. -/
theorem qUpdates : Obligations.QUpdates :=
  fun q r => ⟨rfl, updateQ_left_toNat q r, updateQ_right_toNat q r, rfl⟩

end Sys2Proof.Machine
end

section
/-! # Multiplication by steps

For O24. A step adds A to the upper word of the pair when the pair is odd and halves the 65-bit sum
(`pairNumber_multiplyStep`), so after `n` steps the pair holds the unused bits of the multiplier and, above them,
A times the used ones. -/

namespace Sys2Proof.Machine

/-- One MSTEP with output mode 1 and Q shifting right, on the pair of the partial product and Q (R350). -/
def multiplyStep (a : Word) (p : Word × Word) : Word × Word :=
  let w := (aluOpMstep a p.1 false (p.2.getLsbD 0)).wide
  ((outputSelector .shiftRight (maskedResult false a w) (w.getLsbD 32) a p.2).getD 0,
    updateQ .right p.2 (maskedResult false a w))

/-- The pair as one 64-bit number. -/
def pairNumber (p : Word × Word) : Nat := p.1.toNat * 2 ^ 32 + p.2.toNat

/-- Output mode 1 of a 33-bit sum is its upper 32 bits. -/
theorem shiftRight_wide_toNat (w : BitVec 33) :
    (BitVec.ofBool (w.getLsbD 32) ++ (w.setWidth 32).extractLsb' 1 31).toNat = w.toNat / 2 := by
  have hw := w.isLt
  rw [ofBool_append_high_toNat, toNat_getLsbD_eq_div_mod, BitVec.toNat_setWidth]
  omega

/-- A step halves the sum; the bit it drops enters Q. -/
theorem multiplyStep_toNat (a : Word) (p : Word × Word) :
    let w := (aluOpMstep a p.1 false (p.2.getLsbD 0)).wide.toNat
    (multiplyStep a p).1.toNat = w / 2 ∧ (multiplyStep a p).2.toNat = w % 2 * 2 ^ 31 + p.2.toNat / 2 := by
  refine ⟨shiftRight_wide_toNat _, ?_⟩
  rw [multiplyStep, updateQ_right_toNat, maskedResult, if_neg Bool.false_ne_true, BitVec.toNat_setWidth,
    Nat.mod_mod_of_dvd _ (by decide)]

/-- The pair is halved with A added to its upper word when it is odd; Q's bit 0 is the pair's. -/
theorem pairNumber_multiplyStep (a : Word) (p : Word × Word) :
    pairNumber (multiplyStep a p) = (pairNumber p + pairNumber p % 2 * (a.toNat * 2 ^ 32)) / 2 := by
  obtain ⟨hout, hq⟩ := multiplyStep_toNat a p
  have hbit : (p.2.getLsbD 0).toNat = p.2.toNat % 2 := by rw [toNat_getLsbD_eq_div_mod, Nat.pow_zero, Nat.div_one]
  have hparity : pairNumber p % 2 = p.2.toNat % 2 := by
    unfold pairNumber
    omega
  rw [aluOpMstep_wide_toNat] at hout hq
  rw [hparity, ← hbit, pairNumber, pairNumber, hout, hq]
  generalize p.2.getLsbD 0 = odd at hbit
  cases odd with
  | true =>
    rw [Bool.toNat_true] at hbit
    rw [Bool.toNat_true, if_pos rfl]
    omega
  | false =>
    rw [Bool.toNat_false] at hbit
    rw [Bool.toNat_false, if_neg Bool.false_ne_true]
    omega

/-- After `n` steps, `k` before the end: A times the low `n` bits of the multiplier, above its other bits. -/
theorem pairNumber_repeat_multiplyStep (a q : Word) (n k : Nat) (h : n + k = 32) :
    pairNumber (Nat.repeat (multiplyStep a) n (0, q)) =
      a.toNat * (q.toNat % 2 ^ n) * 2 ^ k + q.toNat / 2 ^ n := by
  induction n generalizing k with
  | zero => simp [Nat.repeat, pairNumber, Nat.mod_one]
  | succ n ih =>
    have hcur : pairNumber (Nat.repeat (multiplyStep a) n (0, q)) =
        2 * (a.toNat * (q.toNat % 2 ^ n) * 2 ^ k) + q.toNat / 2 ^ n := by
      rw [ih (k + 1) (by omega), Nat.pow_succ', Nat.mul_left_comm _ 2 (2 ^ k)]
    have hbit : pairNumber (Nat.repeat (multiplyStep a) n (0, q)) % 2 = q.toNat / 2 ^ n % 2 := by omega
    have hadd : q.toNat / 2 ^ n % 2 * (a.toNat * 2 ^ 32) =
        2 * (a.toNat * (2 ^ n * (q.toNat / 2 ^ n % 2)) * 2 ^ k) := by
      have hpow : 2 ^ 32 = 2 * 2 ^ n * 2 ^ k := by rw [← h, Nat.pow_add, Nat.pow_succ']
      rw [hpow]
      ac_rfl
    have hrest : q.toNat / 2 ^ (n + 1) = q.toNat / 2 ^ n / 2 := by rw [Nat.pow_succ, Nat.div_div_eq_div_mul]
    rw [Nat.repeat, pairNumber_multiplyStep, hbit, hadd, hcur, hrest, Nat.mod_pow_succ, Nat.mul_add, Nat.add_mul]
    omega

/-- Settles O24: after the thirty-second step no bit of the multiplier is left. -/
theorem multiplyStepsGiveTheProduct : Obligations.MultiplyStepsGiveTheProduct := by
  intro a q one p
  have h : pairNumber p = a.toNat * (q.toNat % 2 ^ 32) * 2 ^ 0 + q.toNat / 2 ^ 32 :=
    pairNumber_repeat_multiplyStep a q 32 0 rfl
  rwa [Nat.mod_eq_of_lt q.isLt, Nat.div_eq_of_lt q.isLt, Nat.pow_zero, Nat.mul_one, Nat.add_zero] at h

end Sys2Proof.Machine
end

section
/-! # ALU instructions complete

For O18 to O20. `aluDone_of_runAlu` is the one run of an ALU instruction: the statements' result and carry-out are
those of its operation, and neither operand fetch nor writeback touches `Q`. -/

namespace Sys2Proof.Machine

/-! ## The run -/

theorem funcDest_q {f : FuncDest} {o : Word} {s t : State} (h : funcDest f o s = .go t) : t.data.q = s.data.q := by
  cases f
  case vmaStartRead | vmaStartWrite | vmaStartReadForce | vmaStartWriteForce =>
    rw [(startAccess_frame _ _ _ _ _ _ (.inl h)).1]
  all_goals cases h
  case interruptClear => simp
  all_goals rfl

theorem writeback_q {d : Dest} {o : Word} {s t : State} (h : writeback d o s = .go t) : t.data.q = s.data.q := by
  cases d with
  | a addr =>
    cases h
    rfl
  | func f m =>
    obtain ⟨u, hu, rfl⟩ := writeback_func_go h
    rw [← funcDest_q hu]
    simp

theorem afterFetch_q {c : Common} {s : State} (h : FetchReady c s) : (afterFetch c s).data.q = s.data.q :=
  (fetchOperands_files_q (.inl ⟨_, _, fetchOperands_go h⟩)).2

section
variable {op : AluOp} {i : Instr} {c : Common} {f : AluFields} {s : State}
  (hexec : exec i s = runAlu op c f s) (hready : FetchReady c s)
include hexec hready

/-- Steps 8 to 11 with the result and the carry-out the operation gives. -/
theorem aluDone_of_runAlu {w : BitVec 33} (hw : (op (aValue c s) (mValue c s) f.carry (s.data.q.getLsbD 0)).wide = w) :
    AluDone i c f s (w.setWidth 32) (w.getLsbD 32) := by
  unfold AluDone
  intro r32 o ho hdest
  obtain ⟨s9, hs9, hstored⟩ := (writebackStoresTheOutput f.dest o (afterFetch c s)).1 hdest
  have hr32 : maskedResult f.mask (aValue c s) w = r32 := by rw [maskedResult, maskMerge_eq_ofNat]
  refine ⟨s9, hs9, hstored, ?_⟩
  rw [hexec, runAlu, fetchOperands_go hready, Flow.bind_go]
  dsimp only
  rw [afterFetch_q hready, hw, hr32, ho]
  dsimp only
  rw [hs9, Flow.bind_go, finish_go, writeback_q hs9, afterFetch_q hready]

/-- A logical operation: the carry-out is the sign bit (R330). -/
theorem aluDone_of_logical {r : Word}
    (hr : op (aValue c s) (mValue c s) f.carry (s.data.q.getLsbD 0) = aluLogical r) :
    AluDone i c f s r (r.getLsbD 31) := by
  have hlow : (BitVec.ofBool r.msb ++ r).setWidth 32 = r := BitVec.setWidth_append_eq_right
  have hcarry : (BitVec.ofBool r.msb ++ r).getLsbD 32 = r.getLsbD 31 := by
    rw [BitVec.getLsbD_append, if_neg (Nat.lt_irrefl 32), Nat.sub_self, BitVec.msb_eq_getLsbD_last]
    simp
  have hdone := aluDone_of_runAlu hexec hready (congrArg AluResult.wide hr)
  simp only [aluLogical] at hdone
  rwa [hlow, hcarry] at hdone

/-- An arithmetic operation: the carry-out is bit 32 of the sum. -/
theorem aluDone_of_sum {wide : Nat}
    (hwide : (op (aValue c s) (mValue c s) f.carry (s.data.q.getLsbD 0)).wide.toNat = wide) :
    AluDone i c f s (BitVec.ofNat 32 wide) (decide (2 ^ 32 ≤ wide)) := by
  subst hwide
  have hdone := aluDone_of_runAlu hexec hready rfl
  generalize (op (aValue c s) (mValue c s) f.carry (s.data.q.getLsbD 0)).wide = w at hdone ⊢
  have hcarry : w.getLsbD 32 = decide (2 ^ 32 ≤ w.toNat) :=
    (BitVec.msb_eq_getLsbD_last w).symm.trans (BitVec.msb_eq_decide w)
  rwa [BitVec.ofNat_toNat, ← hcarry]

end

/-! ## The truth tables -/

/-- The bit an operation's code gives for a bit of M and a bit of A (30_encoding R151). -/
def truthBit (code : Nat) (m a : Bool) : Bool := code.testBit (2 * (1 - m.toNat) + (1 - a.toNat))

/-- A logical operation whose truth table is `g`: the result the table names bit by bit is the operation's. -/
theorem aluDone_of_truthTable {op : AluOp} {i : Instr} {c : Common} {f : AluFields} {s : State} {code : Nat}
    {r x : Word} (hexec : exec i s = runAlu op c f s) (hready : FetchReady c s)
    (hop : op (aValue c s) (mValue c s) f.carry (s.data.q.getLsbD 0) = aluLogical x)
    (hr : ∀ k, k < 32 → r.getLsbD k = truthBit code ((mValue c s).getLsbD k) ((aValue c s).getLsbD k))
    (g : Bool → Bool → Bool) (hg : ∀ m a, truthBit code m a = g m a)
    (hx : ∀ k, k < 32 → x.getLsbD k = g ((mValue c s).getLsbD k) ((aValue c s).getLsbD k)) :
    AluDone i c f s r (r.getLsbD 31) := by
  obtain rfl : r = x := BitVec.eq_of_getLsbD_eq fun k hk => by rw [hr k hk, hg, hx k hk]
  exact aluDone_of_logical hexec hready hop

theorem getLsbD_and_not (m a : Word) (k : Nat) (hk : k < 32) :
    (m &&& ~~~a).getLsbD k = (m.getLsbD k && !a.getLsbD k) := by
  rw [BitVec.getLsbD_and, BitVec.getLsbD_not, decide_eq_true hk, Bool.true_and]

theorem getLsbD_allOnes_word (k : Nat) (hk : k < 32) : (BitVec.allOnes 32).getLsbD k = true := by
  rw [BitVec.getLsbD_allOnes, decide_eq_true hk]

/-- Settles O18: each code's truth table is its operation on bits. -/
theorem logicalAluInstructionsComplete : Obligations.LogicalAluInstructionsComplete := by
  intro c f s code i r hi hr hready
  simp only [List.mem_cons, Prod.mk.injEq, List.not_mem_nil, or_false] at hi
  rcases hi with ⟨rfl, rfl⟩ | ⟨rfl, rfl⟩ | ⟨rfl, rfl⟩ | ⟨rfl, rfl⟩ | ⟨rfl, rfl⟩ | ⟨rfl, rfl⟩ | ⟨rfl, rfl⟩ | ⟨rfl, rfl⟩
  · exact aluDone_of_truthTable rfl hready rfl hr (fun _ _ => false) (by decide) fun _ _ => BitVec.getLsbD_zero
  · exact aluDone_of_truthTable rfl hready rfl hr (fun m a => m && a) (by decide) fun _ _ => BitVec.getLsbD_and
  · exact aluDone_of_truthTable rfl hready rfl hr (fun m a => m && !a) (by decide) (getLsbD_and_not _ _)
  · exact aluDone_of_truthTable rfl hready rfl hr (fun m _ => m) (by decide) fun _ _ => rfl
  · exact aluDone_of_truthTable rfl hready rfl hr (fun _ a => a) (by decide) fun _ _ => rfl
  · exact aluDone_of_truthTable rfl hready rfl hr (fun m a => m ^^ a) (by decide) fun _ _ => BitVec.getLsbD_xor
  · exact aluDone_of_truthTable rfl hready rfl hr (fun m a => m || a) (by decide) fun _ _ => BitVec.getLsbD_or
  · exact aluDone_of_truthTable rfl hready rfl hr (fun _ _ => true) (by decide) getLsbD_allOnes_word

/-! ## The sums -/

/-- Settles O19, operation by operation. -/
theorem stepAluInstructionsComplete : Obligations.StepAluInstructionsComplete := by
  intro c f s i wide a m q0 hi hready
  simp only [List.mem_cons, Prod.mk.injEq, List.not_mem_nil, or_false] at hi
  rcases hi with ⟨rfl, rfl⟩ | ⟨rfl, rfl⟩ | ⟨rfl, rfl⟩ | ⟨rfl, rfl⟩
  · exact aluDone_of_sum rfl hready (aluOpMstep_wide_toNat _ _ f.carry _)
  · exact aluDone_of_sum rfl hready (aluOpDstep_wide_toNat _ _ f.carry _)
  · exact aluDone_of_sum rfl hready (aluOpDfstep_wide_toNat _ _ f.carry (s.data.q.getLsbD 0))
  · exact aluDone_of_sum rfl hready (aluOpRstep_wide_toNat _ _ f.carry _)

/-- Settles O20, operation by operation. -/
theorem carryAluInstructionsComplete : Obligations.CarryAluInstructionsComplete := by
  intro c f s i wide a m cin hi hready
  simp only [List.mem_cons, Prod.mk.injEq, List.not_mem_nil, or_false] at hi
  rcases hi with ⟨rfl, rfl⟩ | ⟨rfl, rfl⟩ | ⟨rfl, rfl⟩ | ⟨rfl, rfl⟩
  · exact aluDone_of_sum rfl hready (aluOpSub_wide_toNat _ _ _ (s.data.q.getLsbD 0))
  · exact aluDone_of_sum rfl hready (aluOpAdd_wide_toNat _ _ _ (s.data.q.getLsbD 0))
  · exact aluDone_of_sum rfl hready (aluOpIncm_wide_toNat (aValue c s) _ _ (s.data.q.getLsbD 0))
  · exact aluDone_of_sum rfl hready (aluOpMplusm_wide_toNat (aValue c s) _ _ (s.data.q.getLsbD 0))

end Sys2Proof.Machine
end

section
/-! # BYTE instructions and the barrel shifter

For O25 and O26. `shift_getLsbD` gives the shifter bit by bit, at every `LEN` and `ROT`; where the field fits the
word the index mod 33 is no restriction, and a deposit and a load are each a move of a field. -/

namespace Sys2Proof.Machine

/-! ## The shifter, bit by bit -/

theorem leftMask_getLsbD (j : Nat) {k : Nat} (hk : k < 32) : (leftMask j).getLsbD k = decide (k < j) := by
  rw [leftMask, BitVec.getLsbD_ofNat, decide_eq_true hk, Bool.true_and, Nat.testBit_two_pow_sub_one]

theorem rightMask_getLsbD (i : Nat) {k : Nat} (hk : k < 32) : (rightMask i).getLsbD k = decide (i ≤ k) := by
  have hsub : k - i < 32 := by omega
  rw [rightMask, BitVec.getLsbD_shiftLeft, BitVec.getLsbD_allOnes, decide_eq_true hk, decide_eq_true hsub,
    Bool.true_and, Bool.and_true, ← decide_not, decide_eq_decide, Nat.not_lt]

theorem shiftMask_getLsbD (rot : BitVec 5) (len : BitVec 6) (rmask : Bool) {k : Nat} (hk : k < 32) :
    (shiftMask rot len rmask).getLsbD k =
      decide ((if rmask then rot.toNat else 0) ≤ k ∧ k < ((if rmask then rot.toNat else 0) + len.toNat) % 33) := by
  rw [shiftMask, BitVec.getLsbD_and, leftMask_getLsbD _ hk, rightMask_getLsbD _ hk, Bool.and_comm, Bool.decide_and]

/-- Bit `k` comes from the bit `rot` places below it, around the word (R360). -/
theorem rotateLeft_getLsbD (m : Word) (rot : BitVec 5) {k : Nat} (hk : k < 32) :
    (m.rotateLeft rot.toNat).getLsbD k = m.getLsbD ((k + 32 - rot.toNat) % 32) := by
  have hrot : rot.toNat < 32 := rot.isLt
  rw [BitVec.getLsbD_rotateLeft, Nat.mod_eq_of_lt hrot]
  by_cases hwrap : k < rot.toNat
  · rw [decide_eq_true hwrap, cond_true, Nat.mod_eq_of_lt (by omega : k + 32 - rot.toNat < 32)]
    congr 1
    omega
  · rw [decide_eq_false hwrap, cond_false, decide_eq_true hk, Bool.true_and]
    congr 1
    omega

/-- R360 and R361: the (rotated) M bit inside the mask, the A bit outside it. -/
theorem shift_getLsbD (a m : Word) (rot : BitVec 5) (len : BitVec 6) (rmask rsrc : Bool) {k : Nat} (hk : k < 32) :
    (shift a m rot len rmask rsrc).getLsbD k =
      if (if rmask then rot.toNat else 0) ≤ k ∧ k < ((if rmask then rot.toNat else 0) + len.toNat) % 33 then
        m.getLsbD (if rsrc then (k + 32 - rot.toNat) % 32 else k)
      else a.getLsbD k := by
  have hsrc : (if rsrc then m.rotateLeft rot.toNat else m).getLsbD k =
      m.getLsbD (if rsrc then (k + 32 - rot.toNat) % 32 else k) := by
    cases rsrc with
    | true => exact rotateLeft_getLsbD m rot hk
    | false => rfl
  rw [shift, BitVec.getLsbD_or, BitVec.getLsbD_and, getLsbD_and_not _ _ k hk, hsrc, shiftMask_getLsbD _ _ _ hk]
  generalize m.getLsbD _ = mbit, (if rmask then rot.toNat else 0) = ri
  split
  next hin => rw [decide_eq_true hin, Bool.and_true, Bool.not_true, Bool.and_false, Bool.or_false]
  next hout => rw [decide_eq_false hout, Bool.and_false, Bool.not_false, Bool.and_true, Bool.false_or]

/-! ## The run -/

/-- Steps 8 to 11 of a BYTE instruction (R363). -/
theorem runByte_of_ready {rsrc rmask : Bool} {c : Common} {f : ByteFields} {s : State} {o : Word}
    (ho : shift (aValue c s) (mValue c s) f.rot f.len rmask rsrc = o) (hready : FetchReady c s)
    (hdest : DestReady f.dest o (afterFetch c s)) :
    ∃ s9, writeback f.dest o (afterFetch c s) = .go s9 ∧ Stored f.dest o s9
      ∧ runByte rsrc rmask c f s = .next (endOfCycle c s9) := by
  obtain ⟨s9, hs9, hstored⟩ := (writebackStoresTheOutput f.dest o (afterFetch c s)).1 hdest
  refine ⟨s9, hs9, hstored, ?_⟩
  rw [runByte, fetchOperands_go hready, Flow.bind_go]
  dsimp only
  rw [ho, hs9, Flow.bind_go, finish_go]

/-- Settles O25: the bits determine the output, and each instruction is one run with its two flags. -/
theorem byteInstructionsComplete : Obligations.ByteInstructionsComplete := by
  intro c f s i rsrc rmask o hi hbits hready hdest
  have ho : shift (aValue c s) (mValue c s) f.rot f.len rmask rsrc = o :=
    BitVec.eq_of_getLsbD_eq fun k hk => (shift_getLsbD _ _ _ _ _ _ hk).trans (hbits k hk).symm
  have hrun := runByte_of_ready ho hready hdest
  simp only [List.mem_cons, Prod.mk.injEq, List.not_mem_nil, or_false] at hi
  rcases hi with ⟨rfl, rfl, rfl⟩ | ⟨rfl, rfl, rfl⟩ | ⟨rfl, rfl, rfl⟩ | ⟨rfl, rfl, rfl⟩ <;> exact hrun

/-! ## A field that fits the word -/

/-- A deposit puts bit `k` of the field at bit `r + k` (R367). -/
theorem deposit_getLsbD (b field : Word) {r : BitVec 5} {l : BitVec 6} (hfits : r.toNat + l.toNat ≤ 32) {k : Nat}
    (hk : k < l.toNat) : (shift b field r l true true).getLsbD (r.toNat + k) = field.getLsbD k := by
  have hin : r.toNat ≤ r.toNat + k ∧ r.toNat + k < (r.toNat + l.toNat) % 33 := by omega
  have hindex : (r.toNat + k + 32 - r.toNat) % 32 = k := by omega
  rw [shift_getLsbD _ _ _ _ _ _ (by omega), if_pos rfl, if_pos hin, if_pos rfl, hindex]

/-- A load over an all-zero A answers the `l` bits from bit `r` on, right-justified (R366). -/
theorem load_getLsbD (x : Word) {r : BitVec 5} {l : BitVec 6} (hfits : r.toNat + l.toNat ≤ 32) {k : Nat}
    (hk : k < 32) :
    (shift 0 x (BitVec.ofNat 5 ((32 - r.toNat) % 32)) l false true).getLsbD k =
      (decide (k < l.toNat) && x.getLsbD (r.toNat + k)) := by
  have hrot : (BitVec.ofNat 5 ((32 - r.toNat) % 32)).toNat = (32 - r.toNat) % 32 := by
    rw [BitVec.toNat_ofNat, Nat.mod_mod]
  have hlen : (0 + l.toNat) % 33 = l.toNat := by omega
  rw [shift_getLsbD _ _ _ _ _ _ hk, if_neg Bool.false_ne_true, if_pos rfl, hrot, hlen]
  by_cases hin : k < l.toNat
  · have hindex : (k + 32 - (32 - r.toNat) % 32) % 32 = r.toNat + k := by omega
    rw [if_pos ⟨Nat.zero_le k, hin⟩, hindex, decide_eq_true hin, Bool.true_and]
  · rw [if_neg fun h => hin h.2, decide_eq_false hin, Bool.false_and]
    exact BitVec.getLsbD_zero

/-- Settles O26: bit `k` of the load is bit `r + k` of the deposit, which is bit `k` of the field. -/
theorem depositThenLoadReturnsTheField : Obligations.DepositThenLoadReturnsTheField := by
  intro b field r l hfits
  have hlow : shift 0 (shift b field r l true true) (BitVec.ofNat 5 ((32 - r.toNat) % 32)) l false true =
      BitVec.ofNat 32 (field.toNat % 2 ^ l.toNat) := by
    refine BitVec.eq_of_getLsbD_eq fun k hk => ?_
    rw [load_getLsbD _ hfits hk, BitVec.getLsbD_ofNat, decide_eq_true hk, Bool.true_and, Nat.testBit_mod_two_pow,
      BitVec.testBit_toNat]
    by_cases hin : k < l.toNat
    · rw [deposit_getLsbD b field hfits hin]
    · rw [decide_eq_false hin, Bool.false_and, Bool.false_and]
  have hlt : field.toNat % 2 ^ l.toNat < 2 ^ 32 := Nat.lt_of_le_of_lt (Nat.mod_le _ _) field.isLt
  rw [hlow, BitVec.toNat_ofNat, Nat.mod_eq_of_lt hlt]

end Sys2Proof.Machine
end

section
/-! # PJAN at step 4

For O12. The countdown says which of three things `tickPjan` does; at 0 it is the deferred return, and a filled
after-next slot ends the cycle there. -/

namespace Sys2Proof.Machine

/-- No countdown, no effect (44_microstack_pjan R386). -/
theorem tickPjan_of_none {s : State} (h : s.pcs.popjCountdown = none) : tickPjan s = .go s := by
  rw [tickPjan, h]

/-- A positive countdown goes down by one (R386). -/
theorem tickPjan_of_pos {s : State} {n k : Fin 3} (h : s.pcs.popjCountdown = some n) (hn : n.val = k.val + 1) :
    tickPjan s = .go { s with pcs := { s.pcs with popjCountdown := some k } } := by
  have hpred : n ≠ 0 ∧ n - 1 = k := by omega
  obtain ⟨hpos, rfl⟩ := hpred
  unfold tickPjan
  split
  next hnone => simp [h] at hnone
  next hzero => exact absurd (Option.some.inj (h.symm.trans hzero)) hpos
  next m _ hm => rw [Option.some.inj (h.symm.trans hm)]

/-- At 0 PJAN fires (R387). -/
theorem tickPjan_of_zero {s : State} (h : s.pcs.popjCountdown = some 0) : tickPjan s = deferredReturn s := by
  simp only [tickPjan, h]

theorem step_of_tickPjan_die {s t : State} {k : DieCause} (hrun : Running s) (h : tickPjan (atStep3 s) = .die k t) :
    step s = .next (raiseDie t) := by
  obtain ⟨hspy, hhalted, hheld⟩ := hrun
  simp [step_eq, hspy, hhalted, hheld, runCycle, h]

/-- Settles O12: the countdown decides; the firing that dies leaves the state of step 3. -/
theorem pjanTicksAndFires : Obligations.PjanTicksAndFires := by
  refine ⟨fun _ => tickPjan_of_none, fun _ _ _ => tickPjan_of_pos, fun s hzero hempty => ?fires,
    fun s x hrun hzero hfilled => ?dies⟩
  case fires =>
    have hptr : s.ustack.ptr - 1 = BitVec.ofNat 8 (s.ustack.ptr.toNat + 255) := by bv_omega
    rw [tickPjan_of_zero hzero, deferredReturn_eq, hempty, dropTop, hptr]
    rfl
  case dies =>
    have hdie : tickPjan (atStep3 s) = .die .afterNextCollision (atStep3 s) := by
      rw [tickPjan_of_zero hzero, deferredReturn_eq, hfilled]
      rfl
    exact ⟨_, step_of_tickPjan_die hrun hdie, ⟨rfl, rfl⟩, rfl, rfl⟩

end Sys2Proof.Machine
end

section
/-! # Pushes and pops

For O36. After pushing the addresses of a list, the last one first, the entry `k` below the top holds address `k`, as
long as there are no more than 256 and no push comes round to an earlier one (`foldr_push_read`); pops move the
pointer back and leave the entries (`repeat_dropTop_ustack`). -/

namespace Sys2Proof.Machine

/-- What each entry holds after a push (44_microstack_pjan R380). -/
theorem push_read (a : MicroAddr) (s : State) (i : BitVec 8) :
    (push a s).ustack.ring.read i.toNat = if i = s.ustack.ptr + 1 then a else s.ustack.ring.read i.toNat := by
  simp only [push_ustack, Cells.read_write, BitVec.toNat_inj, eq_comm]

theorem foldr_push_ptr (l : List MicroAddr) (s : State) :
    (l.foldr push s).ustack.ptr = s.ustack.ptr + BitVec.ofNat 8 l.length := by
  induction l with
  | nil => exact (BitVec.add_zero _).symm
  | cons a l ih =>
    rw [List.foldr_cons, List.length_cons, BitVec.ofNat_add, ← BitVec.add_assoc, ← ih]
    rfl

/-- Of up to 256 pushed addresses each is in its own entry, counted down from the top. -/
theorem foldr_push_read (l : List MicroAddr) (s : State) (hlen : l.length ≤ 256) (k : Nat) (hk : k < l.length) :
    let t := l.foldr push s
    t.ustack.ring.read (t.ustack.ptr - BitVec.ofNat 8 k).toNat = l[k] := by
  induction l generalizing k with
  | nil => exact absurd hk (Nat.not_lt_zero k)
  | cons a l ih =>
    intro t
    let u := l.foldr push s
    have hptr : t.ustack.ptr = u.ustack.ptr + 1 := rfl
    have hread : ∀ i : BitVec 8, t.ustack.ring.read i.toNat =
        if i = u.ustack.ptr + 1 then a else u.ustack.ring.read i.toNat := push_read a u
    rw [List.length_cons] at hlen hk
    rw [hread, hptr]
    cases k with
    | zero => rw [if_pos (BitVec.sub_zero _), List.getElem_cons_zero]
    | succ k =>
      have hother : u.ustack.ptr + 1 - BitVec.ofNat 8 (k + 1) ≠ u.ustack.ptr + 1 := by bv_omega
      have hentry : u.ustack.ptr + 1 - BitVec.ofNat 8 (k + 1) = u.ustack.ptr - BitVec.ofNat 8 k := by bv_omega
      rw [if_neg hother, hentry, List.getElem_cons_succ]
      exact ih (Nat.le_of_succ_le hlen) k (Nat.lt_of_succ_lt_succ hk)

theorem repeat_dropTop_ustack (k : Nat) (s : State) :
    (Nat.repeat dropTop k s).ustack = { s.ustack with ptr := s.ustack.ptr - BitVec.ofNat 8 k } := by
  induction k with
  | zero =>
    rw [BitVec.sub_zero]
    rfl
  | succ k ih =>
    have hptr : s.ustack.ptr - BitVec.ofNat 8 k - 1 = s.ustack.ptr - BitVec.ofNat 8 (k + 1) := by bv_omega
    rw [Nat.repeat, dropTop_ustack, ih, hptr]

/-- Settles O36: the list, read from its end, is the entries from the top down. -/
theorem pushesReplayInReverse : Obligations.PushesReplayInReverse := by
  intro s l hlen pushed
  have hpushed : pushed = l.reverse.foldr push s := List.foldl_eq_foldr_reverse
  have hptr : pushed.ustack.ptr = s.ustack.ptr + BitVec.ofNat 8 l.length := by
    rw [hpushed, foldr_push_ptr, List.length_reverse]
  refine ⟨fun k hk => ?_, ?_⟩
  · rw [← List.length_reverse] at hlen hk
    rw [peek, repeat_dropTop_ustack, hpushed, ← List.getElem_reverse hk]
    exact foldr_push_read l.reverse s hlen k hk
  · rw [repeat_dropTop_ustack, hptr, BitVec.add_sub_cancel]

end Sys2Proof.Machine
end

section
/-! # What a transfer does

For O37, and for every instruction that transfers. `transfer_transferred` says of each of the six transfers what it
does to the program counters and the stack, and what becomes of PJAN; `runJump_of_fetchReady` is a JUMP after its
operand fetch, by `Taken`. -/

namespace Sys2Proof.Machine

/-! ## The return address of a CALL -/

/-- A CALL's push, with its three folds of an armed PJAN (44_microstack_pjan R380, R390). -/
theorem pushReturn_pushed (addr : MicroAddr) (s : State) : Pushed addr s (pushReturn addr s) := by
  unfold Pushed pushReturn
  cases s.pcs.popjCountdown with
  | none =>
    simp only [Option.isSome_none, Bool.false_eq_true, false_and, if_false]
    exact ⟨rfl, push_read addr s⟩
  | some n =>
    cases s.cfg.pjanCallFold with
    | tailCall => simp only [Option.isSome_some, and_self, if_true]
    | cancelPush =>
      simp only [Option.isSome_some, true_and, reduceCtorEq, if_false]
      exact ⟨rfl, push_read addr s⟩
    | popThenPush =>
      simp only [Option.isSome_some, true_and, reduceCtorEq, if_false, if_true]
      exact ⟨BitVec.sub_add_cancel _ _, push_read addr (dropTop s)⟩

theorem returnAddress_call (lpc : Bool) (s : State) :
    returnAddress false lpc s = if lpc then s.pcs.currentPC else s.pcs.nextPC := by
  rw [returnAddress, if_neg Bool.false_ne_true]

theorem returnAddress_callXctNext (lpc : Bool) (s : State) :
    returnAddress true lpc s = if lpc then s.pcs.currentPC else s.pcs.nextPC + 1 := by
  have hnext : BitVec.ofNat 16 ((s.pcs.nextPC.toNat + 1) % 65536) = s.pcs.nextPC + 1 := by bv_omega
  rw [returnAddress, if_pos rfl, hnext]

/-! ## The six transfers -/

/-- An execute-next transfer that goes through, after a part `s` to `u` of it that moves the stack alone (R411). -/
theorem goAfterNext_wentAfterNext {target : MicroAddr} {s u t : State} (h : goAfterNext target u = .go t)
    (hnext : u.pcs.nextPC = s.pcs.nextPC) (hstalls : u.stalls = s.stalls) :
    WentAfterNext target s t ∧ t.ustack = u.ustack ∧ t.pcs.popjCountdown = u.pcs.popjCountdown := by
  rw [goAfterNext_eq] at h
  split at h <;> cases h
  exact ⟨⟨hnext, congrArg Stalls.nopNext hstalls, rfl⟩, rfl, rfl⟩

/-- The stack after a CALL's push is all that `Pushed` reads of the later state. -/
theorem Pushed.congr {addr : MicroAddr} {s t t' : State} (h : Pushed addr s t) (hstack : t'.ustack = t.ustack) :
    Pushed addr s t' := by
  unfold Pushed
  rwa [hstack]

/-- What each transfer that goes through does (45_jump R411 to R416; 44_microstack_pjan R390). -/
theorem transfer_transferred {tr : Transfer} {target : MicroAddr} {lpc : Bool} {s t : State}
    (h : transfer tr target lpc s = .go t) :
    Transferred tr target lpc s t
      ∧ t.pcs.popjCountdown = if tr.calls then none else s.pcs.popjCountdown := by
  cases tr with
  | jumpXctNext =>
    obtain ⟨hwent, hstack, hpjan⟩ := goAfterNext_wentAfterNext h rfl rfl
    exact ⟨⟨hwent, hstack⟩, hpjan⟩
  | jump =>
    cases h
    exact ⟨⟨⟨rfl, rfl, rfl⟩, rfl⟩, rfl⟩
  | callXctNext =>
    obtain ⟨hwent, hstack, hpjan⟩ := goAfterNext_wentAfterNext (s := s) h (by simp) (by simp)
    rw [pushReturn_pcs] at hpjan
    refine ⟨⟨hwent, ?_⟩, hpjan⟩
    rw [returnAddress_callXctNext]
    exact (pushReturn_pushed _ s).congr hstack
  | call =>
    cases h
    refine ⟨⟨⟨rfl, rfl, by simp⟩, ?_⟩, by simp [Transfer.calls]⟩
    rw [returnAddress_call]
    exact (pushReturn_pushed _ s).congr rfl
  | retXctNext =>
    obtain ⟨hwent, hstack, hpjan⟩ := goAfterNext_wentAfterNext (s := s) h rfl rfl
    exact ⟨⟨hwent, by rw [hstack]; rfl, by rw [hstack]; rfl⟩, hpjan⟩
  | ret =>
    cases h
    exact ⟨⟨⟨rfl, rfl, rfl⟩, rfl, rfl⟩, rfl⟩

/-- The end of the cycle moves nothing a transfer moves. -/
theorem Transferred.endOfCycle {tr : Transfer} {target : MicroAddr} {lpc : Bool} {s t : State}
    (h : Transferred tr target lpc s t) (c : Common) : Transferred tr target lpc s (Machine.endOfCycle c t) := by
  cases tr <;> exact h

/-! ## A JUMP -/

/-- A JUMP after its operand fetch (R400): its transfer when it is taken, else nothing. -/
theorem runJump_of_fetchReady (tr : Transfer) {c : Common} {f : JumpFields} {s : State} (hready : FetchReady c s)
    (htest : f.test.legal = true) :
    let u := afterFetch c s
    ∃ taken : Bool, (taken = true ↔ Taken f (aValue c s) (mValue c s) u) ∧
      runJump tr c f s =
        finish ((if taken then transfer tr f.addr f.lpc u else .go u).bind fun t => .go (endOfCycle c t)) := by
  intro u
  obtain ⟨b, hb⟩ := Option.ne_none_iff_exists'.mp (testHolds_ne_none htest (aValue c s) (mValue c s) u)
  refine ⟨b != f.inv, taken_iff hb, ?_⟩
  rw [runJump, fetchOperands_go hready, Flow.bind_go]
  simp only [u, hb]

theorem runJump_of_taken {tr : Transfer} {c : Common} {f : JumpFields} {s t : State} (hready : FetchReady c s)
    (htest : f.test.legal = true) (htaken : Taken f (aValue c s) (mValue c s) (afterFetch c s))
    (ht : transfer tr f.addr f.lpc (afterFetch c s) = .go t) : runJump tr c f s = .next (endOfCycle c t) := by
  obtain ⟨taken, htaken_iff, hrun⟩ := runJump_of_fetchReady tr hready htest
  rw [hrun, if_pos (htaken_iff.mpr htaken), ht, Flow.bind_go, finish_go]

/-- Each of the six JUMP instructions is one run with its transfer. -/
theorem exec_jumps {c : Common} {f : JumpFields} {tr : Transfer} {i : Instr}
    (hi : (tr, i) ∈ [(Transfer.jumpXctNext, Instr.jumpXctNext c f), (.jump, .jump c f),
      (.callXctNext, .callXctNext c f), (.call, .call c f), (.retXctNext, .retXctNext c f), (.ret, .ret c f)])
    (s : State) :
    exec i s = runJump tr c f s := by
  simp only [List.mem_cons, Prod.mk.injEq, List.not_mem_nil, or_false] at hi
  rcases hi with ⟨rfl, rfl⟩ | ⟨rfl, rfl⟩ | ⟨rfl, rfl⟩ | ⟨rfl, rfl⟩ | ⟨rfl, rfl⟩ | ⟨rfl, rfl⟩ <;> rfl

/-- Settles O37: the transfer goes through, and the end of the cycle adds the `PJAN` bit. -/
theorem takenJumpsTransfer : Obligations.TakenJumpsTransfer := by
  intro c f s tr i hi hready htest htaken hslot
  obtain ⟨-, hrun, hafter, -⟩ := afterFetch_frame c s
  obtain ⟨t, ht⟩ := transfer_go tr f.addr f.lpc (afterFetch c s) fun hxct => hafter.trans (hslot hxct)
  obtain ⟨htransferred, hpjan⟩ := transfer_transferred ht
  refine ⟨endOfCycle c t, (exec_jumps hi s).trans (runJump_of_taken hready htest htaken ht),
    htransferred.endOfCycle c, ?pjan, ?run⟩
  case pjan => rw [endOfCycle_pcs, hpjan, pjanAfter]
  case run => rw [endOfCycle_run, transfer_frame tr _ _ _ _ (.inl ht), hrun]

end Sys2Proof.Machine
end

section
/-! # A JUMP that is not taken

For O38. Without its transfer a JUMP goes from the operand fetch straight to the end of the cycle. -/

namespace Sys2Proof.Machine

theorem runJump_of_not_taken {tr : Transfer} {c : Common} {f : JumpFields} {s : State} (hready : FetchReady c s)
    (htest : f.test.legal = true) (huntaken : ¬ Taken f (aValue c s) (mValue c s) (afterFetch c s)) :
    runJump tr c f s = .next (endOfCycle c (afterFetch c s)) := by
  obtain ⟨taken, htaken_iff, hrun⟩ := runJump_of_fetchReady tr hready htest
  rw [hrun, if_neg (mt htaken_iff.mp huntaken), Flow.bind_go, finish_go]

/-- Each JUMP instruction is a run with one of the transfers. -/
theorem exec_jump_exists {c : Common} {f : JumpFields} {i : Instr}
    (hi : i ∈ [Instr.jumpXctNext c f, .jump c f, .callXctNext c f, .call c f, .retXctNext c f, .ret c f]) (s : State) :
    ∃ tr, exec i s = runJump tr c f s := by
  obtain ⟨⟨tr, _⟩, hpair, rfl⟩ := List.mem_map (f := Prod.snd) (l := [(Transfer.jumpXctNext, Instr.jumpXctNext c f),
    (.jump, .jump c f), (.callXctNext, .callXctNext c f), (.call, .call c f), (.retXctNext, .retXctNext c f),
    (.ret, .ret c f)]) |>.mp hi
  exact ⟨tr, exec_jumps hpair s⟩

/-- Settles O38: whichever the transfer, it does not happen (45_jump R400). -/
theorem untakenJumpsFallThrough : Obligations.UntakenJumpsFallThrough := by
  intro c f s i hi hready htest huntaken
  obtain ⟨tr, hrun⟩ := exec_jump_exists hi s
  exact hrun.trans (runJump_of_not_taken hready htest huntaken)

end Sys2Proof.Machine
end

section
/-! # The two DISPATCH instructions

For O39 and O40. A DISPATCH looks its word up in a state that differs from the one operand fetch left in the dispatch
constant and the countdown stall alone (`exec_dispatches_lookedUp`). Its start-read moves the virtual-memory registers,
the client and the requests (`startRead_go`), its transfer the program counters and the stack: neither touches what
the other is judged by, so both are said of the state after operand fetch. -/

namespace Sys2Proof.Machine

/-! ## The GC-volatility bit -/

/-- Settles O39: the two fields compared are two-bit numbers of the entries (46_dispatch R437). -/
theorem gcVolatilityComparesGenerations : Obligations.GcVolatilityComparesGenerations := by
  intro s hcompare
  have hcached : (s.vm.cachedGeneration.extractLsb' 0 2).toNat = s.vm.cachedGeneration.toNat / 1 % 4 :=
    toNat_extractLsb'_eq_div_mod _ 0 2
  have hlevel1 : ((lv1Entry s s.vm.md).extractLsb' 7 2).toNat = (lv1Entry s s.vm.md).toNat / 128 % 4 :=
    toNat_extractLsb'_eq_div_mod _ 7 2
  rw [gcVolatileBit, hcompare, gcVolatile, decide_eq_true_iff, BitVec.lt_def, hcached, hlevel1, Nat.div_one,
    lv1Entry_eq]

/-! ## The lookup -/

/-- The state a dispatch word is acted on in (46_dispatch R431, R440): the constant latched, the countdown stall set. -/
def lookedUp (k : BitVec 10) (countdown : Nat) (s : State) : State :=
  { latchConstant k s with stalls := { s.stalls with macroDispatch := countdown } }

theorem afterFetch_macroDispatch {c : Common} (f : DispatchFields) {s : State} (h : FetchReady c s) :
    (afterFetch c s).stalls.macroDispatch = s.stalls.macroDispatch := by
  have hframe := fetchOperands_ensures (i := .dispatch c f) (s := s)
  rw [Instr.common, fetchOperands_go h] at hframe
  exact hframe.macroDispatch fun _ _ => Instr.noConfusion

/-- Both DISPATCH instructions after operand fetch, with the word and the countdown of each. -/
theorem exec_dispatches_lookedUp {c : Common} {f : DispatchFields} {s : State} {i : Instr} {w : Word} {countdown : Nat}
    (hi : (i, w, countdown) ∈
      [(Instr.dispatch c f, s.files.amem.read (tableIndex c f (mValue c s) (afterFetch c s)), s.stalls.macroDispatch),
        (.dispatchMir c f, macroWord (afterFetch c s), s.cfg.midStallCycles)]) (h : FetchReady c s) :
    exec i s =
      finish ((applyDispatchWord w (mValue c s) f.lpc (lookedUp f.dconst countdown (afterFetch c s))).bind
        fun s8 => .go (endOfCycle c s8)) := by
  simp only [List.mem_cons, Prod.mk.injEq, List.not_mem_nil, or_false] at hi
  rcases hi with ⟨rfl, rfl, rfl⟩ | ⟨rfl, rfl, rfl⟩
  · rw [← afterFetch_macroDispatch f h]
    exact execDispatch_of_fetchReady f h
  · obtain ⟨-, -, hcfg⟩ := afterFetch_memories c s
    rw [← hcfg]
    exact execDispatchMir_of_fetchReady f h

/-! ## The word's action -/

theorem transferOf_of_code {w : Word} {tr : Transfer} (h : tr.code = w.toNat / 2 ^ 16 % 8) :
    transferOf (w.extractLsb' 16 3) = some tr := by
  have hcode : ∀ rpn : BitVec 3, tr.code = rpn.toNat → transferOf rpn = some tr := by cases tr <;> decide
  have hfield : (w.extractLsb' 16 3).toNat = w.toNat / 2 ^ 16 % 8 := toNat_extractLsb'_eq_div_mod w 16 3
  exact hcode _ (h.trans hfield.symm)

/-- The start-read of a dispatch word, when it has one that can start (46_dispatch R435, R436). -/
theorem startRead_go {read : Bool} {m : Word} {s : State}
    (h : read = true → FaultRule s m .read false ∨ s.client.busPending = .idle) :
    ∃ vm client requests,
      (if read then startAccess m .read false .dataRead s else .go s)
          = .go { s with vm := vm, client := client, requests := requests }
        ∧ (read = true →
          Started m .read false .dataRead s { s with vm := vm, client := client, requests := requests })
        ∧ (read = false → vm = s.vm ∧ requests = s.requests ∧ client = s.client) := by
  cases read with
  | false => exact ⟨s.vm, s.client, s.requests, rfl, nofun, fun _ => ⟨rfl, rfl, rfl⟩⟩
  | true =>
    obtain ⟨t, ht⟩ := startAccess_go m .read false .dataRead s ((canStart_iff m .read false s).mpr (h rfl))
    obtain ⟨hframe, -⟩ := startAccess_frame m .read false .dataRead s t (.inl ht)
    have hstarted := startAccess_started ht
    rw [hframe] at ht hstarted
    exact ⟨_, _, _, ht, fun _ => hstarted, nofun⟩

/-- A transfer is judged by the program counters, the stack and the NOP-next stall, which neither the lookup nor the
start-read moves. -/
theorem Transferred.of_lookedUp {tr : Transfer} {target : MicroAddr} {lpc : Bool} {k : BitVec 10} {countdown : Nat}
    {s t : State} {vm : Vm} {client : Client} {requests : List BusRequest}
    (h : Transferred tr target lpc
      { lookedUp k countdown s with vm := vm, client := client, requests := requests } t) :
    Transferred tr target lpc s t := by
  cases tr <;> exact h

/-- Settles O40: the lookup, the start-read and the transfer go through, and the end of the cycle adds the `PJAN`
bit. -/
theorem dispatchesTransferByTheirWord : Obligations.DispatchesTransferByTheirWord := by
  intro c f s tr i w countdown u m hi hready hcode hread hslot
  obtain ⟨-, hrun, hafter, -⟩ := afterFetch_frame c s
  obtain ⟨vm, client, requests, hgo, hstarted, hkept⟩ := startRead_go (s := lookedUp f.dconst countdown u) hread
  obtain ⟨t, ht⟩ := transfer_go tr (w.extractLsb' 0 16) f.lpc
    { lookedUp f.dconst countdown u with vm := vm, client := client, requests := requests }
    fun hxct => hafter.trans (hslot hxct)
  obtain ⟨htransferred, hpjan⟩ := transfer_transferred ht
  have hframe := transfer_frame tr _ _ _ _ (.inl ht)
  refine ⟨endOfCycle c t, ?exec, ?transferred, ?pjan, ?constant, ?countdown, fun hw => ?started, fun hw => ?kept,
    ?run⟩
  case exec =>
    rw [exec_dispatches_lookedUp hi hready, applyDispatchWord_of_legal (transferOf_of_code hcode), hgo, Flow.bind_go,
      ht, Flow.bind_go, finish_go]
  case transferred =>
    rw [← extractLsb'_zero_eq_ofNat]
    exact htransferred.of_lookedUp.endOfCycle c
  case pjan =>
    rw [endOfCycle_pcs, hpjan, pjanAfter]
    rfl
  case constant =>
    rw [hframe]
    rfl
  case countdown =>
    rw [hframe]
    rfl
  case started =>
    rw [hframe]
    exact hstarted hw
  case kept =>
    rw [hframe]
    obtain ⟨hvm, hrequests, hclient⟩ := hkept hw
    exact ⟨hvm, hrequests, hclient⟩
  case run =>
    rw [hframe]
    have hdie : u.run.dieRequest = s.run.dieRequest := congrArg Run.dieRequest hrun
    exact hdie

end Sys2Proof.Machine
end

section
/-! # A write to the interrupt window

For O33. `intWrite` raises or withdraws a vector, or neither (`Raises`, `Withdraws`), and then looks for the lowest
pending one. -/

namespace Sys2Proof.Machine

/-- A write of `d` to vector `v` counts the vector: interrupts are enabled and it is not pending yet (60_exceptions
R501). -/
def Raises (v : BitVec 8) (d : Bool) (s : State) : Prop :=
  d = true ∧ s.modes.rgMode.getLsbD 0 = true ∧ s.intr.status.read v.toNat = 0

/-- A write of `d` to vector `v` counts the vector off: it is pending (R501). -/
def Withdraws (v : BitVec 8) (d : Bool) (s : State) : Prop := d = false ∧ s.intr.status.read v.toNat = 1

/-- The vector raised or withdrawn, before the recomputation (R501). -/
def windowStored (v : BitVec 8) (d : Bool) (s : State) : State :=
  if d then
    if intEnable s && (intStatus s v == 0) then markPending v s else s
  else
    if intStatus s v == 1 then unmarkPending v s else s

theorem intWrite_eq (v : BitVec 8) (d : Bool) (s : State) : intWrite v d s = recomputeVector (windowStored v d s) := rfl

section
variable {v : BitVec 8} {d : Bool} {s : State}

theorem windowStored_of_raises (h : Raises v d s) : windowStored v d s = markPending v s := by
  obtain ⟨rfl, henable, hclear⟩ := h
  simp [windowStored, intEnable, intStatus, henable, hclear]

theorem windowStored_of_withdraws (h : Withdraws v d s) : windowStored v d s = unmarkPending v s := by
  obtain ⟨rfl, hset⟩ := h
  simp [windowStored, intStatus, hset]

theorem windowStored_of_neither (hraise : ¬ Raises v d s) (hwithdraw : ¬ Withdraws v d s) :
    windowStored v d s = s := by
  cases d with
  | true =>
    have hrefused : ¬ (intEnable s && (intStatus s v == 0)) = true := fun h => by
      rw [Bool.and_eq_true, beq_iff_eq] at h
      exact hraise ⟨rfl, h⟩
    simp only [windowStored, if_true, if_neg hrefused]
  | false =>
    have hrefused : ¬ (intStatus s v == 1) = true := fun h => hwithdraw ⟨rfl, beq_iff_eq.mp h⟩
    simp only [windowStored, Bool.false_eq_true, if_false, if_neg hrefused]

end

theorem windowStored_vector (v : BitVec 8) (d : Bool) (s : State) :
    (windowStored v d s).intr.vector = s.intr.vector := by
  unfold windowStored
  (repeat' split) <;> rfl

/-- Every vector below the recomputed one is clear (R504). -/
theorem recomputeVector_below (s : State) {n : Nat} (hn : n < (recomputeVector s).intr.vector.toNat) :
    s.intr.status.read n = 0 := by
  have hlt : n < 256 := Nat.lt_trans hn (BitVec.isLt _)
  refine (BitVec.eq_zero_or_eq_one _).resolve_right fun hset => ?_
  exact absurd hn (Nat.not_lt.mpr (recomputeVector_lowest s hlt hset).2)

/-- Settles O33: the status bit and the count are those of the raise or the withdrawal, which the recomputation of the
vector leaves. -/
theorem interruptWindowWrites : Obligations.InterruptWindowWrites := by
  intro s v d t raised withdrawn
  have ht : t = recomputeVector (windowStored v d s) := intWrite_eq v d s
  obtain ⟨hpending, hstatus⟩ := recomputeVector_intr (windowStored v d s)
  rw [ht, hpending, hstatus]
  refine ⟨fun h => ?_, fun h => ?_, fun hr hw => ?_, fun h n => ?_, fun h n => ?_, fun hr hw n => ?_,
    fun ⟨k, hk, hset⟩ => ?lowest, fun hnone => ?kept⟩
  · rw [windowStored_of_raises h, markPending_intr]
  · rw [windowStored_of_withdraws h, unmarkPending_intr]
  · rw [windowStored_of_neither hr hw]
  · simp only [windowStored_of_raises h, markPending_intr, Cells.read_write, eq_comm]
  · simp only [windowStored_of_withdraws h, unmarkPending_intr, Cells.read_write, eq_comm]
  · rw [windowStored_of_neither hr hw]
  case lowest => exact ⟨(recomputeVector_lowest _ hk hset).1, fun n => recomputeVector_below _⟩
  case kept => rw [recomputeVector_of_none hnone, windowStored_vector]

end Sys2Proof.Machine
end

section
/-! # The SPY register map

For O47 and O48. An offset names a sub-register (`SpyReg.offset`), and each sub-register reads and stores its own word
(47_spy R452); the control-store words go through the page map, as a micro-address does. -/

namespace Sys2Proof.Machine

/-! ## Offsets -/

/-- The byte offset of a sub-register (R452). -/
def SpyReg.offset : SpyReg → Nat
  | .irLow => 0x00
  | .irHigh => 0x04
  | .cramAddr => 0x08
  | .cramDataLow => 0x0C
  | .cramDataHigh => 0x10
  | .cramMap => 0x14
  | .tramAddr => 0x18
  | .tramData => 0x1C
  | .historyAddr => 0x20
  | .historyData => 0x24
  | .historyPointer => 0x28
  | .multFT => 0x2C
  | .dpMode => 0x30
  | .rgMode => 0x34
  | .configuration => 0x38
  | .processorMode => 0x3C
  | .parityVector => 0x40

theorem spyRegAt_of_offset {off : BitVec 8} {r : SpyReg} (h : off.toNat = r.offset) : spyRegAt off = some r := by
  unfold spyRegAt
  rw [h]
  cases r <;> rfl

/-- The offsets above the last sub-register name none (R467). -/
theorem spyRegAt_eq_none {off : BitVec 8} (h : 0x40 < off.toNat) : spyRegAt off = none := by
  unfold spyRegAt
  split
  any_goals omega
  rfl

/-! ## Words and halves -/

theorem lowHalf_toNat (w : Slot) : (w.extractLsb' 0 32).toNat = w.toNat % 2 ^ 32 := by
  rw [toNat_extractLsb'_eq_div_mod, Nat.pow_zero, Nat.div_one]

theorem highHalf_toNat (w : Slot) : ((w.extractLsb' 32 24).setWidth 32).toNat = w.toNat / 2 ^ 32 := by
  have hlt := w.isLt
  rw [toNat_setWidth_word (by decide), toNat_extractLsb'_eq_div_mod, Nat.mod_eq_of_lt (by omega)]

/-- The physical slot of a micro-address, by numbers (10_state R29). -/
theorem slotOf_toNat (s : State) (u : MicroAddr) :
    (slotOf s u).toNat = (s.store.cramMap.read (u.toNat / 16)).toNat * 16 + u.toNat % 16 := by
  have hslot : (slotOf s u).toNat =
      (s.store.cramMap.read (u.extractLsb' 4 12).toNat).toNat * 2 ^ 4 + (u.extractLsb' 0 4).toNat :=
    toNat_append_eq_mul_add _ _
  have hline : (u.extractLsb' 0 4).toNat = u.toNat / 2 ^ 0 % 2 ^ 4 := toNat_extractLsb'_eq_div_mod _ 0 4
  rw [hslot, hline, microPage_toNat, Nat.pow_zero, Nat.div_one]
  rfl

/-- Replacing a part of the word a micro-address maps to: that slot's word, and every other slot as it was. -/
theorem cram_write_slotOf_toNat (f : FuncDest) (o : Word) (s : State) (u : MicroAddr) (n : Nat) :
    ((s.store.cram.write (slotOf s u).toNat (cramStore f o (readCram s u))).read n).toNat =
      if n = (slotOf s u).toNat then (cramStore f o (s.store.cram.read n)).toNat
      else (s.store.cram.read n).toNat := by
  rw [Cells.read_write, readCram]
  by_cases hn : n = (slotOf s u).toNat
  · rw [if_pos hn, if_pos hn.symm, hn]
  · rw [if_neg hn, if_neg (Ne.symm hn)]

/-! ## Reads -/

/-- Settles O47: a full-width sub-register gives its word, a narrower one keeps its number, and the slot is a word's low
or high half. -/
theorem spyReadsFollowTheRegisterMap : Obligations.SpyReadsFollowTheRegisterMap := by
  intro s off slot
  have hread : ∀ (r : SpyReg) {n : Nat}, (spyValue r s).toNat = n → off.toNat = r.offset →
      (spyRead (spyRegAt off) s).toNat = n := fun r n hvalue hoff => by
    rw [spyRegAt_of_offset hoff, spyRead, hvalue]
  have hcram : readCram s s.spyUnit.spyCramAddr = s.store.cram.read slot := readCram_eq_read s _
  have hmap : (spyValue .cramMap s).toNat = (s.store.cramMap.read (s.spyUnit.spyCramAddr.toNat / 16)).toNat := by
    rw [spyValue, toNat_setWidth_word (by decide), microPage_toNat]
  have hzext : ∀ {w : Nat}, w ≤ 32 → ∀ x : BitVec w, (x.setWidth 32).toNat = x.toNat := toNat_setWidth_word
  refine ⟨?_, fun habove => by rw [spyRegAt_eq_none (by omega), spyRead]⟩
  simp only [List.forall_mem_cons, ← hcram]
  exact ⟨hread .irLow (lowHalf_toNat _), hread .irHigh (highHalf_toNat _), hread .cramAddr (hzext (by decide) _),
    hread .cramDataLow (lowHalf_toNat _), hread .cramDataHigh (highHalf_toNat _), hread .cramMap hmap,
    hread .tramAddr (hzext (by decide) _), hread .tramData rfl, hread .historyAddr (hzext (by decide) _),
    hread .historyData (hzext (by decide) _), hread .historyPointer (hzext (by decide) _), hread .multFT rfl,
    hread .dpMode rfl, hread .rgMode rfl, hread .configuration rfl, hread .processorMode rfl, hread .parityVector rfl,
    nofun⟩

/-! ## Writes -/

/-- Settles O48: each offset names its sub-register, whose store writes one field of the state; a memory word reads
back what was stored and the others as they were. -/
theorem spyWritesFollowTheRegisterMap : Obligations.SpyWritesFollowTheRegisterMap := by
  intro s off x t slot
  have hstore : ∀ r : SpyReg, off.toNat = r.offset → t = spyStore r x s := fun r hoff =>
    congrArg (spyWrite · x s) (spyRegAt_of_offset hoff)
  have hslot : (slotOf s s.spyUnit.spyCramAddr).toNat = slot := slotOf_toNat s _
  refine ⟨fun h => ?irLow, fun h => ?irHigh, fun h => ?cramAddr, fun h => ?cramDataLow, fun h => ?cramDataHigh,
    fun h => ?cramMap, fun h => ?tramAddr, fun h => ?tramData, fun h => ?historyAddr, fun h => ?historyData,
    fun h => ?historyPointer, hstore .multFT, hstore .dpMode, hstore .rgMode, hstore .configuration, fun h => ?above⟩
  case irLow =>
    rw [hstore .irLow h]
    exact ⟨rfl, cramStore_cramLow_toNat x s.pcs.ir⟩
  case irHigh =>
    rw [hstore .irHigh h]
    exact ⟨rfl, cramStore_cramHigh_toNat x s.pcs.ir⟩
  case cramDataLow =>
    rw [hstore .cramDataLow h]
    refine ⟨rfl, fun n => (cram_write_slotOf_toNat .cramLow x s _ n).trans ?_⟩
    rw [cramStore_cramLow_toNat, hslot]
  case cramDataHigh =>
    rw [hstore .cramDataHigh h]
    refine ⟨rfl, fun n => (cram_write_slotOf_toNat .cramHigh x s _ n).trans ?_⟩
    rw [cramStore_cramHigh_toNat, hslot]
  case cramMap =>
    rw [hstore .cramMap h]
    refine ⟨rfl, fun n => ?_⟩
    simp only [spyStore, writeCramMap_store, Cells.read_write, microPage_toNat, extractLsb'_zero_eq_ofNat, eq_comm]
  case tramData =>
    rw [hstore .tramData h]
    refine ⟨rfl, fun n => ?_⟩
    simp only [spyStore, Cells.read_write, eq_comm]
  case historyData =>
    rw [hstore .historyData h]
    refine ⟨rfl, fun n => ?_⟩
    simp only [spyStore, Cells.read_write, extractLsb'_zero_eq_ofNat, eq_comm]
  case cramAddr => rw [hstore .cramAddr h, spyStore, extractLsb'_zero_eq_ofNat]
  case tramAddr => rw [hstore .tramAddr h, spyStore, extractLsb'_zero_eq_ofNat]
  case historyAddr => rw [hstore .historyAddr h, spyStore, extractLsb'_zero_eq_ofNat]
  case historyPointer => rw [hstore .historyPointer h, spyStore, extractLsb'_zero_eq_ofNat]
  case above =>
    rcases Nat.eq_or_lt_of_le h with hlast | habove
    · exact hstore .parityVector hlast.symm
    · exact congrArg (spyWrite · x s) (spyRegAt_eq_none habove)

end Sys2Proof.Machine
end

section
/-! # SPY byte lanes

For O49. The offset of a request in the window gives the sub-register and, by its two low bits, the byte lane (47_spy
R451). -/

namespace Sys2Proof.Machine

/-- The window's base is a bus address (00_scope R8). -/
theorem spyBase_lt (busID : Fin 2) : spyBase busID < 2 ^ 32 := by
  have hid := busID.isLt
  unfold spyBase
  omega

theorem spyOffset_toNat {s : State} {off : Nat} (haddr : s.bus.address.toNat = spyBase s.client.busID + off)
    (hoff : off < 256) : (spyOffset s).toNat = off := by
  have hbase : (BitVec.ofNat 32 (spyBase s.client.busID)).toNat = spyBase s.client.busID := by
    rw [BitVec.toNat_ofNat, Nat.mod_eq_of_lt (spyBase_lt _)]
  have hle : BitVec.ofNat 32 (spyBase s.client.busID) ≤ s.bus.address := by
    rw [BitVec.le_def, hbase, haddr]
    exact Nat.le_add_right _ _
  rw [spyOffset, toNat_extractLsb'_eq_div_mod, BitVec.toNat_sub_of_le hle, hbase, haddr, Nat.add_sub_cancel_left,
    Nat.pow_zero, Nat.div_one]
  exact Nat.mod_eq_of_lt hoff

/-- Clearing the lane bits of an offset rounds it down to a word. -/
theorem and_laneBits (x : BitVec 8) : x &&& 0xFC = BitVec.ofNat 8 (x.toNat / 4 * 4) := by
  have hmask : ∀ k < 8, (0xFC : BitVec 8).getLsbD k = decide (2 ≤ k) := by decide
  refine BitVec.eq_of_getLsbD_eq fun k hk => ?_
  have hword : (x.toNat / 2 ^ 2 * 2 ^ 2).testBit k = (decide (2 ≤ k) && x.getLsbD k) := by
    rw [Nat.testBit_mul_two_pow, Nat.testBit_div_two_pow]
    by_cases h : 2 ≤ k
    · rw [Nat.sub_add_cancel h, BitVec.testBit_toNat]
    · simp [h]
  rw [BitVec.getLsbD_and, hmask k hk, BitVec.getLsbD_ofNat, decide_eq_true hk, Bool.true_and, Bool.and_comm]
  exact hword.symm

/-- The mask of a lane is the bits of its byte. -/
theorem laneMask_getLsbD (lane : BitVec 2) {k : Nat} (hk : k < 32) :
    (laneMask lane).getLsbD k = decide (k / 8 = lane.toNat) := by
  have hbyte : (0xFF#32).getLsbD (k - 8 * lane.toNat) = decide (k - 8 * lane.toNat < 8) :=
    Nat.testBit_two_pow_sub_one 8 _
  rw [laneMask, BitVec.getLsbD_shiftLeft, hbyte, decide_eq_true hk, Bool.true_and, ← decide_not, ← Bool.decide_and]
  exact decide_eq_decide.mpr (by omega)

/-- Settles O49: the offset's word and lane, and what the responder does for each kind of request. -/
theorem spyByteLanes : Obligations.SpyByteLanes := by
  intro s off hselected haddr reg t inLane
  have hoff : (spyOffset s).toNat = off := by
    obtain ⟨-, -, -, -, hend⟩ := (windowHit_iff s _ _).mp hselected
    refine spyOffset_toNat haddr ?_
    rw [haddr] at hend
    exact Nat.lt_of_add_lt_add_left hend
  have hreg : spyRegAt (spyOffset s &&& 0xFC) = reg := by rw [and_laneBits, hoff]
  have hlane : ∀ k, k < 32 → (laneMask ((spyOffset s).extractLsb' 0 2)).getLsbD k = decide (inLane k) := by
    intro k hk
    rw [laneMask_getLsbD _ hk, toNat_extractLsb'_eq_div_mod, hoff, Nat.pow_zero, Nat.div_one]
    rfl
  generalize hmask : laneMask ((spyOffset s).extractLsb' 0 2) = lanes at hlane
  refine ⟨fun hkind => ?readWord, fun hkind => ?readByte, fun hkind => ?writeWord, fun hkind => ?writeByte⟩
  case readWord =>
    have ht : t = acknowledgeRead (spyRead reg s) s := by simp only [t, spyRespond, hkind, hreg]
    exact ht
  case readByte =>
    have ht : t = acknowledgeRead (spyRead reg s &&& lanes) s := by simp only [t, spyRespond, hkind, hreg, hmask]
    rw [ht]
    refine ⟨rfl, fun k hk => ?_⟩
    rw [acknowledgeRead_bus, BitVec.getLsbD_and, hlane k hk, Bool.and_comm]
  case writeWord =>
    have ht : t = acknowledge (spyWrite reg s.bus.data s) := by simp only [t, spyRespond, hkind, hreg]
    exact ⟨_, rfl, ht⟩
  case writeByte =>
    have ht : t = acknowledge (spyWrite reg ((spyRead reg s &&& ~~~lanes) ||| (s.bus.data &&& lanes)) s) := by
      simp only [t, spyRespond, hkind, hreg, hmask]
    refine ⟨_, _, fun k hk => ?_, rfl, ht⟩
    rw [BitVec.getLsbD_or, BitVec.getLsbD_and, BitVec.getLsbD_and, BitVec.getLsbD_not, hlane k hk]
    by_cases h : inLane k <;> simp [h, hk]

end Sys2Proof.Machine
end

section
/-! # A die-request outlives every step without a reset

For O51 and O54. A platform tick without a reset event writes only what `engineOf` leaves out; the bus service keeps the
run state, and SPY restarts no engine that has a die-request (47_spy R465). -/

namespace Sys2Proof.Machine

/-! ## The platform's tick -/

/-- The engine without what the platform's events other than a reset act on: the bus cells, the requests waiting
and the inputs (logs 7 and 9). -/
def engineOf (s : State) : State := { s with bus := State.reset.bus, requests := [], inputs := [] }

theorem applyEvent_engineOf {e : PlatformEvent} (he : ∀ id, e ≠ .reset id) (s : State) :
    engineOf (applyEvent e s) = engineOf s := by
  cases e with
  | reset id => exact absurd rfl (he id)
  | grant =>
    unfold applyEvent
    dsimp only
    split <;> rfl
  | cells b => rfl

theorem applyEvents_engineOf {es : List PlatformEvent} (hes : ∀ id, PlatformEvent.reset id ∉ es) (s : State) :
    engineOf (applyEvents es s) = engineOf s := by
  induction es generalizing s with
  | nil => rfl
  | cons e es ih =>
    have hrest : ∀ id, PlatformEvent.reset id ∉ es := fun id hid => hes id (List.mem_cons_of_mem e hid)
    have hfirst : ∀ id, e ≠ .reset id := fun id he => hes id (he ▸ List.mem_cons_self)
    exact (ih hrest (applyEvent e s)).trans (applyEvent_engineOf hfirst s)

theorem platformTick_engineOf {s : State} (h : NoInitialize s) : engineOf (platformTick s) = engineOf s := by
  unfold platformTick
  split
  · rfl
  next es rest hin => exact applyEvents_engineOf (h es rest hin) _

/-! ## Up to the SPY window -/

/-- Steps 1 and 2 but for SPY, with no reset before them, leave the run state, the program counters, the register
files and the micro-return-stack. -/
theorem atStep3_of_noInitialize {s : State} (h : NoInitialize s) :
    (atStep3 s).run = s.run ∧ (atStep3 s).pcs = s.pcs ∧ (atStep3 s).files = s.files
      ∧ (atStep3 s).ustack = s.ustack := by
  have htick := platformTick_engineOf h
  have hrun : (platformTick s).run = s.run := (congrArg State.run htick :)
  have hpcs : (platformTick s).pcs = s.pcs := (congrArg State.pcs htick :)
  have hfiles : (platformTick s).files = s.files := (congrArg State.files htick :)
  have hustack : (platformTick s).ustack = s.ustack := (congrArg State.ustack htick :)
  simp [atStep3, serveBus, hrun, hpcs, hfiles, hustack]

/-! ## SPY -/

/-- No store of SPY's restarts a dead engine; a write of `PROCESSOR_MODE` is the one that could (R465). -/
theorem spyWrite_halted_of_dead {s : State} (h : Dead s) (r : Option SpyReg) (x : Word) :
    (spyWrite r x s).run.halted = true := by
  obtain ⟨hdie, hhalted⟩ := h
  rcases r with _ | r
  · exact hhalted
  cases r
  case processorMode =>
    have hwrite : (spyWrite (some .processorMode) x s).run.halted = _ := writeProcMode_halted x s
    simp [hwrite, hdie, hhalted]
  all_goals exact hhalted

theorem spyRespond_halted_of_dead {s : State} (h : Dead s) : (spyRespond s).run.halted = true := by
  by_cases hk : s.bus.kind = .writeWord ∨ s.bus.kind = .writeByte
  · obtain ⟨r, x, hx⟩ := spyRespond_of_write hk
    rw [hx]
    exact spyWrite_halted_of_dead h r x
  · obtain ⟨v, hv⟩ := spyRespond_of_read hk
    rw [hv]
    exact h.2

/-- Settles O51: a dead engine is halted at step 3, so its cycle ends there or serves SPY. -/
theorem dieRequestIsTerminal : Obligations.DieRequestIsTerminal := by
  intro s hdead hno
  obtain ⟨hrun, hpcs, hfiles, hustack⟩ := atStep3_of_noInitialize hno
  have hdead3 : Dead (atStep3 s) := by rwa [Dead, hrun]
  have hnext : (atStep3 s).pcs.nextPC = s.pcs.nextPC := by rw [hpcs]
  have hcurrent : (atStep3 s).pcs.currentPC = s.pcs.currentPC := by rw [hpcs]
  cases hspy : spySelected (atStep3 s) with
  | false =>
    exact ⟨atStep3 s, step_of_halted_or_held hspy (.inl hdead3.2), hdead3, hnext, hcurrent, hfiles, hustack⟩
  | true =>
    obtain ⟨hstep, -, -, -, hframe⟩ := spyCycleExecutesNothing s hspy
    refine ⟨spyRespond (atStep3 s), hstep, ⟨?_, spyRespond_halted_of_dead hdead3⟩, ?_, ?_, ?_, ?_⟩ <;>
      rw [hframe]
    · exact hdead3.1
    · exact hnext
    · exact hcurrent
    · exact hfiles
    · exact hustack

/-! ## The reset values -/

/-- Settles O54: `initEngine` is written over the reset state and takes the memory arrays and the bus cells from the
state before. -/
theorem initializeGivesTheResetValues : Obligations.InitializeGivesTheResetValues := by
  intro s busID t
  refine ⟨rfl, rfl, rfl, rfl, rfl, rfl, rfl, rfl, rfl, ?_⟩
  refine ⟨rfl, rfl, rfl, rfl, rfl, rfl, rfl, fun n => Cells.read_nil n, ?_⟩
  exact ⟨rfl, rfl, rfl, rfl, rfl, rfl, rfl, rfl, rfl, rfl, rfl, rfl, rfl⟩

end Sys2Proof.Machine
end
